-- ==== Sys2Proof/Word.lean ====
section
/-! DEFINITION. The word types of the core (spec 00_scope.md R5, R7): bit 0 is the least significant bit, every value
is unsigned. -/

namespace Sys2Proof

/-- One byte: a register, a memory cell, a timer, an immediate (00_scope.md R5). -/
abbrev Byte := BitVec 8

/-- A 16-bit value: the instruction word, `pc`, `I`, a stack entry (00_scope.md R5). -/
abbrev Word := BitVec 16

/-- The 12-bit address field `nnn`, and the loader port's address (30_encoding.md R45, 44_cycle.md R93). -/
abbrev Addr := BitVec 12

/-- A 4-bit field of the instruction word (30_encoding.md R45). -/
abbrev Nibble := BitVec 4

/-- The index of a general register, V0 to VF: "every value 0..15 is valid" (30_encoding.md R46). -/
abbrev Reg := Fin 16

end Sys2Proof
end

