-- ==== Sys2Proof/Config.lean ====
section
/-! DEFINITION. What is fixed for one machine (the parameters of spec 00_scope.md R6) and the one free value: the
random source (41_data_alu.md R82). -/

namespace Sys2Proof

/-- The parameter DRAW_EDGE (00_scope.md R6, 42_display.md R87): what becomes of a sprite pixel past the right or
bottom edge of the display. -/
inductive DrawEdge where
  /-- it reappears on the opposite side (the default) -/
  | wrap
  /-- it is dropped -/
  | clip
deriving DecidableEq, Repr

/-- The parameter SHIFT_SRC (00_scope.md R6, 41_data_alu.md R79): the register that SHR and SHL read. -/
inductive ShiftSrc where
  /-- the source is `V[y]` (the default) -/
  | vy
  /-- the source is `V[x]` and the `y` field is ignored -/
  | vx
deriving DecidableEq, Repr

/-- The configuration of one machine (00_scope.md R6: "A model takes them as configuration fields"). -/
structure Config where
  /-- DRAW_EDGE -/
  drawEdge : DrawEdge
  /-- SHIFT_SRC -/
  shiftSrc : ShiftSrc
deriving DecidableEq, Repr

/-- The defaults of 00_scope.md R6: DRAW_EDGE = WRAP, SHIFT_SRC = VY. -/
def Config.default : Config := { drawEdge := .wrap, shiftSrc := .vy }

/-- FREE VALUE (41_data_alu.md R82, 93_implementation_defined.md U4, log entry 2): the byte the random source delivers
at its `k`-th free draw. No body: nothing can be proved of it, so a claim holds for every sequence of draws. -/
opaque Config.freeRnd : Nat → Byte

/-- MEM_SIZE, the number of bytes of main memory (00_scope.md R5). -/
def memSize : Nat := 4096

/-- PROG_BASE, where programs start (00_scope.md R5). -/
def progBase : Nat := 0x200

/-- MAX_PROGRAM, the longest program in bytes (00_scope.md R5). -/
def maxProgram : Nat := memSize - progBase

end Sys2Proof
end

