-- ==== Sys2Proof/Syntax.lean ====
section
/-! DEFINITION. The instructions of the core: one constructor per row of spec/opcode_table.json, in the table's order
(30_encoding.md R48). A word that no row matches is UNKNOWN; that is a decode result, not an instruction of the table
(30_encoding.md R47, 43_unknown.md R91; see Decode.lean, log entry 5). -/

namespace Sys2Proof

/-- The 23 instructions of 30_encoding.md R48. Operands are the fields of R45: `x`, `y` register indices, `kk` the
immediate byte, `nnn` the 12-bit address, `n` the sprite height 0..15. -/
inductive Instr where
  /-- CLS, 42_display.md R85 -/
  | cls
  /-- RET, 40_control_flow.md R58 -/
  | ret
  /-- JP nnn, 40_control_flow.md R59 -/
  | jp (nnn : Addr)
  /-- CALL nnn, 40_control_flow.md R60 -/
  | call (nnn : Addr)
  /-- SE Vx, kk, 40_control_flow.md R61 -/
  | seImm (x : Reg) (kk : Byte)
  /-- SNE Vx, kk, 40_control_flow.md R62 -/
  | sneImm (x : Reg) (kk : Byte)
  /-- SE Vx, Vy, 40_control_flow.md R63 -/
  | seReg (x y : Reg)
  /-- LD Vx, kk, 41_data_alu.md R70 -/
  | ldImm (x : Reg) (kk : Byte)
  /-- ADD Vx, kk, 41_data_alu.md R71 -/
  | addImm (x : Reg) (kk : Byte)
  /-- LD Vx, Vy, 41_data_alu.md R72 -/
  | ldReg (x y : Reg)
  /-- OR Vx, Vy, 41_data_alu.md R73 -/
  | orReg (x y : Reg)
  /-- AND Vx, Vy, 41_data_alu.md R74 -/
  | andReg (x y : Reg)
  /-- XOR Vx, Vy, 41_data_alu.md R75 -/
  | xorReg (x y : Reg)
  /-- ADD Vx, Vy, 41_data_alu.md R76 -/
  | addReg (x y : Reg)
  /-- SUB Vx, Vy, 41_data_alu.md R77 -/
  | subReg (x y : Reg)
  /-- SHR Vx, Vy, 41_data_alu.md R80 -/
  | shr (x y : Reg)
  /-- SUBN Vx, Vy, 41_data_alu.md R78 -/
  | subn (x y : Reg)
  /-- SHL Vx, Vy, 41_data_alu.md R81 -/
  | shl (x y : Reg)
  /-- SNE Vx, Vy, 40_control_flow.md R64 -/
  | sneReg (x y : Reg)
  /-- LD I, nnn, 41_data_alu.md R83 -/
  | ldI (nnn : Addr)
  /-- JP V0, nnn, 40_control_flow.md R65 -/
  | jpV0 (nnn : Addr)
  /-- RND Vx, kk, 41_data_alu.md R82 -/
  | rnd (x : Reg) (kk : Byte)
  /-- DRW Vx, Vy, n, 42_display.md R86 -/
  | drw (x y : Reg) (n : Fin 16)
deriving DecidableEq, Repr

end Sys2Proof
end

