-- ==== Sys2Proof/WellFormed.lean ====
section
/-! DEFINITION. The static checks: of an instruction (30_encoding.md R46), and of a program, as the obligations that
the spec puts on the program and its loader (70_reset_and_hazards.md R125, R126; the hardware checks none of them). -/

namespace Sys2Proof

/-- Every operand lies in the range of its field (30_encoding.md R46: "every value 0..15 is valid, so a register index
can never be out of range"). The operand types carry these bounds, so that no term of `Instr` is ill formed. -/
def Instr.wf : Instr → Bool
  | .cls | .ret => true
  | .jp nnn | .call nnn | .ldI nnn | .jpV0 nnn => nnn.toNat < 4096
  | .seImm x kk | .sneImm x kk | .ldImm x kk | .addImm x kk | .rnd x kk => x.val < 16 && kk.toNat < 256
  | .seReg x y | .sneReg x y | .ldReg x y | .orReg x y | .andReg x y | .xorReg x y
  | .addReg x y | .subReg x y | .subn x y | .shr x y | .shl x y => x.val < 16 && y.val < 16
  | .drw x y n => x.val < 16 && y.val < 16 && n.val < 16

/-- A program as the loader gets it: the bytes that go to 0x200 and up (44_cycle.md R103). -/
abbrev Program := List Byte

/-- The loader's duty: the blob fits into the program space (70_reset_and_hazards.md R125). -/
def Program.fits (p : Program) : Bool := p.length ≤ maxProgram

/-- The program's duty: a direct jump or call does not lead into the reserved region 0x000..0x1FF
(70_reset_and_hazards.md R126; 20_memory.md R37: "a model may state it as a well-formedness premise of a program, never
as a fault of the machine"). -/
def Instr.staysInProgramSpace : Instr → Bool
  | .jp nnn | .call nnn => progBase ≤ nnn.toNat
  | .cls | .ret | .ldI _ | .jpV0 _ | .seImm _ _ | .sneImm _ _ | .ldImm _ _ | .addImm _ _ | .rnd _ _
  | .seReg _ _ | .sneReg _ _ | .ldReg _ _ | .orReg _ _ | .andReg _ _ | .xorReg _ _
  | .addReg _ _ | .subReg _ _ | .subn _ _ | .shr _ _ | .shl _ _ | .drw _ _ _ => true

end Sys2Proof
end

