-- ==== Sys2Proof/Decode.lean ====
section
/-! DEFINITION. The decoder (spec 30_encoding.md R43 to R53) and, after it, the encoder, both from the formats of R44
and the opcode map of R48. Decoding is total: a word that no row matches is `unknown`, by name (R47). -/

namespace Sys2Proof

/-! ## Bit fields and byte order -/

/-- `w = mem[pc] ++ mem[pc+1]`: the first byte is the high byte (20_memory.md R32). -/
def composeWord (hi lo : Byte) : Word := hi ++ lo

/-- The byte of `w` that lies at the lower address (20_memory.md R32). -/
def highByte (w : Word) : Byte := w.extractLsb' 8 8

/-- The byte of `w` that lies at the higher address (20_memory.md R32). -/
def lowByte (w : Word) : Byte := w.extractLsb' 0 8

/-- A 4-bit field as an index 0..15: of a register, or a sprite height. -/
def Nibble.index (b : Nibble) : Fin 16 := ⟨b.toNat, b.isLt⟩

/-- An index 0..15 as the 4-bit field that encodes it. -/
def Reg.field (r : Fin 16) : Nibble := BitVec.ofNat 4 r.val

/-- The six fields of the instruction word (30_encoding.md R45). -/
structure Fields where
  op : Nibble
  x : Reg
  y : Reg
  n : Nibble
  kk : Byte
  nnn : Addr
deriving DecidableEq, Repr

/-- The one extraction of each field, the same for every instruction (30_encoding.md R45). -/
def fields (w : Word) : Fields :=
  { op := w.extractLsb' 12 4
    x := Nibble.index (w.extractLsb' 8 4)
    y := Nibble.index (w.extractLsb' 4 4)
    n := w.extractLsb' 0 4
    kk := w.extractLsb' 0 8
    nnn := w.extractLsb' 0 12 }

/-! ## The decoder -/

/-- What a word decodes to (30_encoding.md R47): one of the 23 instructions, or UNKNOWN with the word. -/
inductive Decoded where
  | instr (i : Instr)
  | unknown (w : Word)
deriving DecidableEq, Repr

/-- Group `op = 0x0`: two complete words (30_encoding.md R49). -/
def decodeSystem (w : Word) : Decoded :=
  if w = 0x00E0#16 then .instr .cls
  else if w = 0x00EE#16 then .instr .ret
  else .unknown w

/-- Group `op = 0x8`: the sub-opcode selects among nine operations (30_encoding.md R50). -/
def decodeAlu (w : Word) (x y : Reg) (sub : Nibble) : Decoded :=
  match sub with
  | 0x0#4 => .instr (.ldReg x y)
  | 0x1#4 => .instr (.orReg x y)
  | 0x2#4 => .instr (.andReg x y)
  | 0x3#4 => .instr (.xorReg x y)
  | 0x4#4 => .instr (.addReg x y)
  | 0x5#4 => .instr (.subReg x y)
  | 0x6#4 => .instr (.shr x y)
  | 0x7#4 => .instr (.subn x y)
  | 0xE#4 => .instr (.shl x y)
  | _ => .unknown w

/-- The decoder: a pure, total function of the word (30_encoding.md R47, R48). The groups 0x5 and 0x9 want a low nibble
of 0 (R51); the groups 0xE and 0xF hold no instruction (R52). -/
def decode (w : Word) : Decoded :=
  let f := fields w
  match f.op with
  | 0x0#4 => decodeSystem w
  | 0x1#4 => .instr (.jp f.nnn)
  | 0x2#4 => .instr (.call f.nnn)
  | 0x3#4 => .instr (.seImm f.x f.kk)
  | 0x4#4 => .instr (.sneImm f.x f.kk)
  | 0x5#4 => if f.n = 0x0#4 then .instr (.seReg f.x f.y) else .unknown w
  | 0x6#4 => .instr (.ldImm f.x f.kk)
  | 0x7#4 => .instr (.addImm f.x f.kk)
  | 0x8#4 => decodeAlu w f.x f.y f.n
  | 0x9#4 => if f.n = 0x0#4 then .instr (.sneReg f.x f.y) else .unknown w
  | 0xA#4 => .instr (.ldI f.nnn)
  | 0xB#4 => .instr (.jpV0 f.nnn)
  | 0xC#4 => .instr (.rnd f.x f.kk)
  | 0xD#4 => .instr (.drw f.x f.y (Nibble.index f.n))
  | _ => .unknown w

/-- The decoder on the two bytes of an instruction as memory holds them, the lower address first. -/
def decodeBytes (first second : Byte) : Decoded := decode (composeWord first second)

/-- The instruction the decoder reads from a row's bits, numbered as spec/opcode_table.json numbers them: `w` laid out
as the hardware stores it (high byte first, 20_memory.md R32) and given to the decoder. -/
def decodeTableWord (nbits w : Nat) : Option Instr :=
  let word : Word := BitVec.ofNat 16 (w % 2 ^ nbits)
  match decodeBytes (highByte word) (lowByte word) with
  | .instr i => some i
  | .unknown _ => none

/-! ## The encoder (30_encoding.md section 6) -/

/-- Format NNN (30_encoding.md R44). -/
def formNNN (op : Nibble) (nnn : Addr) : Word := op ++ nnn

/-- Format XKK (30_encoding.md R44). -/
def formXKK (op : Nibble) (x : Reg) (kk : Byte) : Word := op ++ Reg.field x ++ kk

/-- Formats XY and XYN (30_encoding.md R44): the last nibble is the sub-opcode or the sprite height. -/
def formXYN (op : Nibble) (x y : Reg) (n : Nibble) : Word := op ++ Reg.field x ++ Reg.field y ++ n

/-- The word of an instruction (30_encoding.md R44, R48). -/
def encode : Instr → Word
  | .cls => 0x00E0#16
  | .ret => 0x00EE#16
  | .jp nnn => formNNN 0x1#4 nnn
  | .call nnn => formNNN 0x2#4 nnn
  | .seImm x kk => formXKK 0x3#4 x kk
  | .sneImm x kk => formXKK 0x4#4 x kk
  | .seReg x y => formXYN 0x5#4 x y 0x0#4
  | .ldImm x kk => formXKK 0x6#4 x kk
  | .addImm x kk => formXKK 0x7#4 x kk
  | .ldReg x y => formXYN 0x8#4 x y 0x0#4
  | .orReg x y => formXYN 0x8#4 x y 0x1#4
  | .andReg x y => formXYN 0x8#4 x y 0x2#4
  | .xorReg x y => formXYN 0x8#4 x y 0x3#4
  | .addReg x y => formXYN 0x8#4 x y 0x4#4
  | .subReg x y => formXYN 0x8#4 x y 0x5#4
  | .shr x y => formXYN 0x8#4 x y 0x6#4
  | .subn x y => formXYN 0x8#4 x y 0x7#4
  | .shl x y => formXYN 0x8#4 x y 0xE#4
  | .sneReg x y => formXYN 0x9#4 x y 0x0#4
  | .ldI nnn => formNNN 0xA#4 nnn
  | .jpV0 nnn => formNNN 0xB#4 nnn
  | .rnd x kk => formXKK 0xC#4 x kk
  | .drw x y n => formXYN 0xD#4 x y (Reg.field n)

/-- The two bytes of an instruction as memory holds them, the lower address first (20_memory.md R32). -/
def encodeBytes (i : Instr) : List Byte := [highByte (encode i), lowByte (encode i)]

/-! ## The opcode map, as the spec's table of mask and match

`decode` does not use it: it is the table of 30_encoding.md R48 (spec/opcode_table.json) written down a second time, to
hold the decoder against. -/

/-- One row of the opcode map: selected when `(w and mask) = pattern` (30_encoding.md R48). -/
structure OpcodeRow where
  mask : Word
  pattern : Word
  /-- the instruction of the row, from the fields its format names -/
  build : Fields → Instr

/-- Rows 1 to 9 of 30_encoding.md R48. -/
def opcodeRowsLow : List OpcodeRow :=
  [ ⟨0xFFFF, 0x00E0, fun _ => .cls⟩, ⟨0xFFFF, 0x00EE, fun _ => .ret⟩,
    ⟨0xF000, 0x1000, fun f => .jp f.nnn⟩, ⟨0xF000, 0x2000, fun f => .call f.nnn⟩,
    ⟨0xF000, 0x3000, fun f => .seImm f.x f.kk⟩, ⟨0xF000, 0x4000, fun f => .sneImm f.x f.kk⟩,
    ⟨0xF00F, 0x5000, fun f => .seReg f.x f.y⟩, ⟨0xF000, 0x6000, fun f => .ldImm f.x f.kk⟩,
    ⟨0xF000, 0x7000, fun f => .addImm f.x f.kk⟩ ]

/-- Rows 10 to 18 of 30_encoding.md R48. -/
def opcodeRowsAlu : List OpcodeRow :=
  [ ⟨0xF00F, 0x8000, fun f => .ldReg f.x f.y⟩, ⟨0xF00F, 0x8001, fun f => .orReg f.x f.y⟩,
    ⟨0xF00F, 0x8002, fun f => .andReg f.x f.y⟩, ⟨0xF00F, 0x8003, fun f => .xorReg f.x f.y⟩,
    ⟨0xF00F, 0x8004, fun f => .addReg f.x f.y⟩, ⟨0xF00F, 0x8005, fun f => .subReg f.x f.y⟩,
    ⟨0xF00F, 0x8006, fun f => .shr f.x f.y⟩, ⟨0xF00F, 0x8007, fun f => .subn f.x f.y⟩,
    ⟨0xF00F, 0x800E, fun f => .shl f.x f.y⟩ ]

/-- Rows 19 to 23 of 30_encoding.md R48. -/
def opcodeRowsHigh : List OpcodeRow :=
  [ ⟨0xF00F, 0x9000, fun f => .sneReg f.x f.y⟩, ⟨0xF000, 0xA000, fun f => .ldI f.nnn⟩,
    ⟨0xF000, 0xB000, fun f => .jpV0 f.nnn⟩, ⟨0xF000, 0xC000, fun f => .rnd f.x f.kk⟩,
    ⟨0xF000, 0xD000, fun f => .drw f.x f.y (Nibble.index f.n)⟩ ]

/-- The opcode map of 30_encoding.md R48. -/
def opcodeMap : List OpcodeRow := opcodeRowsLow ++ opcodeRowsAlu ++ opcodeRowsHigh

end Sys2Proof
end

