-- ==== Sys2Proof/Machine/State.lean ====
section
/-! DEFINITION. The state of the core as plain data (spec 10_state.md R10), its value after reset (R27), the outcomes'
reason types, the events of a step (44_cycle.md R94) and the host's moves (R102 to R106). -/

namespace Sys2Proof.Machine

/-- Main memory: (address, byte) pairs, addresses strictly rising, no byte 0x00; an unlisted address reads as 0x00, the
reset contents of 10_state.md R27 (log entry 8). The form is `Memory.wf` (Ops.lean). -/
abbrev Memory := List Host.Cell

/-- The display buffer, one bit vector a row, row 0 the top one; bit `k` of a row is the pixel of column `k`
(10_state.md R20, log entry 7). -/
abbrev Display := Vector (BitVec 64) 32

/-- The pixel in column `1` and row `2`: every index into `disp` is in range (10_state.md R20). -/
abbrev Pixel := Fin 64 × Fin 32

/-- The register `err` (10_state.md R24): which fatal error halted the core. -/
inductive ErrCode where
  /-- 0: no fatal error since reset -/
  | none
  /-- 1 -/
  | stackOverflow
  /-- 2 -/
  | stackUnderflow
  /-- 3 -/
  | outOfBoundsAccess
deriving DecidableEq, Repr

/-- What an instruction or the fetch can `raise` (00_scope.md R8). -/
inductive FatalError where
  | stackOverflow
  | stackUnderflow
  /-- with the lowest byte address of the access that lies above 0xFFF -/
  | outOfBoundsAccess (addr : Word)
deriving DecidableEq, Repr

/-- The state of the core (10_state.md R10), and three fields of the model's own: `cfg` (log entry 1), `rndIn` and
`rndDraws` (log entry 2). -/
structure State where
  /-- main memory (20_memory.md R31) -/
  mem : Memory
  /-- the registers V0 to VF (10_state.md R11) -/
  v : Vector Byte 16
  /-- the index register I (10_state.md R17) -/
  i : Word
  /-- the program counter (10_state.md R14) -/
  pc : Word
  /-- the saved program counters (10_state.md R18) -/
  stack : Vector Word 16
  /-- the number of valid stack entries, 0 to 16 (10_state.md R18) -/
  sp : Fin 17
  /-- the display buffer (10_state.md R20) -/
  disp : Display
  /-- the delay timer DT (10_state.md R21) -/
  dt : Byte
  /-- the sound timer ST (10_state.md R21) -/
  st : Byte
  /-- the dirty flag (10_state.md R22) -/
  dirty : Bool
  /-- a fatal error halted the core (10_state.md R23) -/
  halted : Bool
  /-- which one (10_state.md R24) -/
  err : ErrCode
  /-- its offending address (10_state.md R24) -/
  errAddr : Word
  /-- an UNKNOWN instruction was executed since reset (10_state.md R25) -/
  unkSeen : Bool
  /-- the model's own: the bytes the host's random source will deliver to the coming samples of `rnd_in`, the next one
  first (44_cycle.md R106) -/
  rndIn : List Byte
  /-- the model's own: how many free draws were taken -/
  rndDraws : Nat
  /-- the model's own: the parameters of 00_scope.md R6, which nothing changes -/
  cfg : Config
deriving DecidableEq, Repr

/-- The state after reset (10_state.md R27, 70_reset_and_hazards.md R123), with the default parameters (00_scope.md R6)
and no random byte announced. -/
def State.reset : State :=
  { mem := []
    v := Vector.replicate 16 0
    i := 0
    pc := 0x0200
    stack := Vector.replicate 16 0
    sp := 0
    disp := Vector.replicate 32 0
    dt := 0
    st := 0
    dirty := true
    halted := false
    err := .none
    errAddr := 0
    unkSeen := false
    rndIn := []
    rndDraws := 0
    cfg := Config.default }

/-- No step of this machine ends in a fault, so the type is empty: the spec describes what every fatal error writes
(60_exceptions.md R110), and the model enters it as a next state (log entry 3). Nothing raises a fault. -/
inductive Fault : Type where
deriving DecidableEq, Repr

/-- The refusals of a step. -/
inductive Refusal where
  /-- Raised by an arm of `exec` whose instruction has no meaning yet, and by nothing else: no arm does. It would be
  safe: the model stops where the hardware goes on. -/
  | notModelled (mnemonic : String)
deriving DecidableEq, Repr

/-- What a step or a meaning answers. -/
abbrev Result := Host.Outcome State Fault Refusal

/-- The event outputs of one step (44_cycle.md R94, R100). They are not state. -/
structure Events where
  /-- the beep edge (44_cycle.md R99) -/
  beep : Bool
  /-- `some w` for `warn_unknown = 1` with `warn_word = w` (43_unknown.md R91) -/
  warn : Option Word
deriving DecidableEq, Repr

/-- No event. -/
def Events.none : Events := { beep := false, warn := Option.none }

/-- What the host can do to the core between two steps (44_cycle.md R102 to R106, 70_reset_and_hazards.md R122). -/
inductive HostMove where
  /-- `rst` (70_reset_and_hazards.md R122) -/
  | reset
  /-- one byte through the loader port (44_cycle.md R103) -/
  | load (addr : Addr) (b : Byte)
  /-- the delay timer's write port (44_cycle.md R104) -/
  | writeDT (b : Byte)
  /-- the sound timer's write port (44_cycle.md R104) -/
  | writeST (b : Byte)
  /-- the renderer's `dirty_clr` (44_cycle.md R105) -/
  | clearDirty
  /-- the random source announces its coming bytes (44_cycle.md R106) -/
  | presentRnd (bytes : List Byte)
deriving DecidableEq, Repr

end Sys2Proof.Machine
end

