-- ==== Sys2Proof/Machine/Ops.lean ====
section
/-! DEFINITION. The named operations over memory, registers, stack, display, timers and the random source, and taking a
fatal error: each said once, from the rule its docstring cites. The instructions' meanings are written over them. -/

namespace Sys2Proof.Machine

/-! ## Main memory (20_memory.md) -/

/-- What an unlisted address reads as: reset clears all of memory, and "a read returns the byte last written there by
the loader, or 0x00 if none was written since reset" (20_memory.md R31, 10_state.md R27). -/
def Memory.unlisted : Byte := 0x00#8

/-- The byte at an address (20_memory.md R31). No read has a side effect. -/
def Memory.read : Memory → Nat → Byte
  | [], _ => Memory.unlisted
  | (k, c) :: m, a => if a = k then c else Memory.read m a

/-- The write of one byte, which keeps the canonical form: writing what an unlisted address reads as takes the entry
out. Only the loader port writes memory (20_memory.md R31, 44_cycle.md R103). -/
def Memory.write : Memory → Nat → Byte → Memory
  | [], a, b => if b = Memory.unlisted then [] else [(a, b)]
  | (k, c) :: m, a, b =>
    if a < k then
      if b = Memory.unlisted then (k, c) :: m else (a, b) :: (k, c) :: m
    else if a = k then
      if b = Memory.unlisted then m else (a, b) :: m
    else (k, c) :: Memory.write m a b

/-- The canonical form from address `lo` on. -/
def Memory.wfFrom : Nat → Memory → Bool
  | _, [] => true
  | lo, (k, c) :: m => lo ≤ k && k < memSize && c != Memory.unlisted && Memory.wfFrom (k + 1) m

/-- The canonical form: addresses strictly rising, all inside memory (20_memory.md R31), no byte that an unlisted
address would read as. -/
def Memory.wf (m : Memory) : Bool := Memory.wfFrom 0 m

/-- The lowest address above 0xFFF of an access to `n` bytes at `addr`, if it has one: the bounds check of `MemRead`
(00_scope.md R8, 20_memory.md R34). The sum is not truncated, and an access to no byte has none (42_display.md R90). -/
def firstOutside (addr n : Nat) : Option Word :=
  if 0 < n ∧ 0xFFF < addr + n - 1 then some (BitVec.ofNat 16 (max addr 0x1000)) else none

/-- `MemRead(addr, n)`, its bytes in order of address, or the error it raises (00_scope.md R8). -/
def State.memRead (s : State) (addr n : Nat) : Except FatalError (List Byte) :=
  match firstOutside addr n with
  | some a => .error (.outOfBoundsAccess a)
  | none => .ok ((List.range n).map fun k => s.mem.read (addr + k))

/-- The fetch: the word at `pc`, big-endian, or the error of an access that leaves memory (44_cycle.md R96, 20_memory.md
R32). It changes nothing. -/
def State.fetch (s : State) : Except FatalError Word :=
  match firstOutside s.pc.toNat 2 with
  | some a => .error (.outOfBoundsAccess a)
  | none => .ok (composeWord (s.mem.read s.pc.toNat) (s.mem.read (s.pc.toNat + 1)))

/-! ## Registers (10_state.md) -/

/-- The flag register's index (10_state.md R12). -/
def VF : Reg := 0xF

/-- `V[r]` (00_scope.md R8): no register is hardwired (10_state.md R11). -/
def State.reg (s : State) (r : Reg) : Byte := s.v[r]

/-- `V[r] <- b` (00_scope.md R8). -/
def State.setReg (s : State) (r : Reg) (b : Byte) : State := { s with v := s.v.set r b }

/-- `I <- w` (00_scope.md R8). -/
def State.setIndex (s : State) (w : Word) : State := { s with i := w }

/-- `pc <- w` (00_scope.md R8). -/
def State.setPc (s : State) (w : Word) : State := { s with pc := w }

/-- `pc <- pc + 2`, the normal update (10_state.md R14, R15). -/
def State.advance (s : State) : State := s.setPc (s.pc + 2)

/-- `pc <- c ? pc + 4 : pc + 2`, the conditional skip (40_control_flow.md section 5). -/
def State.skipIf (s : State) (c : Bool) : State := s.setPc (if c then s.pc + 4 else s.pc + 2)

/-- `unk_seen <- 1` (10_state.md R25). -/
def State.markUnknown (s : State) : State := { s with unkSeen := true }

/-! ## The call stack (10_state.md R18, R19) -/

/-- Push: `stack[sp] <- w; sp <- sp + 1`, or StackOverflow with sixteen entries. -/
def State.push (s : State) (w : Word) : Except FatalError State :=
  if h : s.sp.val < 16 then
    .ok { s with stack := s.stack.set s.sp.val w h, sp := ⟨s.sp.val + 1, by omega⟩ }
  else .error .stackOverflow

/-- Pop: `sp <- sp - 1` and the value `stack[sp]` under the new `sp`, or StackUnderflow with none. The entry stays as
it is. -/
def State.pop (s : State) : Except FatalError (Word × State) :=
  if 0 < s.sp.val then
    .ok (s.stack[s.sp.val - 1], { s with sp := ⟨s.sp.val - 1, by omega⟩ })
  else .error .stackUnderflow

/-! ## The display (10_state.md R20, 42_display.md) -/

/-- `disp[y][x]` for the pixel `(x, y)`. -/
def Display.pixel (d : Display) (p : Pixel) : Bool := d[p.2].getLsbD p.1

/-- `disp[y][x] <- disp[y][x] xor 1` for the pixel `(x, y)`. -/
def Display.toggle (d : Display) (p : Pixel) : Display := d.set p.2 (d[p.2] ^^^ BitVec.twoPow 64 p.1)

/-- Every pixel 0 (42_display.md R85). -/
def Display.blank : Display := Vector.replicate 32 0

/-- One placed 1 bit of a sprite: the pixel so far is tested for a collision, then toggled (42_display.md R86). -/
def Display.plot (acc : Display × Bool) (p : Pixel) : Display × Bool :=
  (acc.1.toggle p, acc.2 || acc.1.pixel p)

/-- The loop of 42_display.md R86 over the placed 1 bits of a sprite: the new buffer, and whether a pixel went from 1
to 0. -/
def Display.draw (d : Display) (points : List Pixel) : Display × Bool := points.foldl Display.plot (d, false)

/-- The display buffer after a CLS or a DRW: each "sets `dirty <- 1` every time it completes" (42_display.md R84). -/
def State.showDisplay (s : State) (d : Display) : State := { s with disp := d, dirty := true }

/-! ## The timers (10_state.md R21) -/

/-- "Each timer is decremented by exactly 1 per cycle while greater than 0, floor at 0" (44_cycle.md R98). -/
def countDown (b : Byte) : Byte := if b = 0 then 0 else b - 1

/-- The timer tick at the end of a completed step (44_cycle.md R98). -/
def State.tick (s : State) : State := { s with dt := countDown s.dt, st := countDown s.st }

/-- The tick of this state takes ST from 1 to 0 (44_cycle.md R99). -/
def State.beepEdge (s : State) : Bool := s.st == 1

/-! ## The random source (41_data_alu.md R82, 44_cycle.md R106; log entry 2) -/

/-- The byte on `rnd_in`: the next one the host announced, else a free value. -/
def State.rndByte (s : State) : Byte :=
  match s.rndIn with
  | b :: _ => b
  | [] => Config.freeRnd s.rndDraws

/-- After one sample: the announced byte is used up, or one more free draw is taken. -/
def State.consumeRnd (s : State) : State :=
  { s with
    rndIn := s.rndIn.tail
    rndDraws := if s.rndIn.isEmpty then s.rndDraws + 1 else s.rndDraws }

/-! ## Fatal errors (60_exceptions.md) -/

/-- The number of an `err` value, as the 3-bit output shows it (60_exceptions.md R108). -/
def ErrCode.bits : ErrCode → BitVec 3
  | .none => 0
  | .stackOverflow => 1
  | .stackUnderflow => 2
  | .outOfBoundsAccess => 3

/-- `code(E)` (60_exceptions.md R108). -/
def FatalError.code : FatalError → ErrCode
  | .stackOverflow => .stackOverflow
  | .stackUnderflow => .stackUnderflow
  | .outOfBoundsAccess _ => .outOfBoundsAccess

/-- What `err_addr` records: "the offending address for `OutOfBoundsAccess`, 0 for the stack errors" (60_exceptions.md
R110). -/
def FatalError.addr : FatalError → Word
  | .stackOverflow => 0
  | .stackUnderflow => 0
  | .outOfBoundsAccess a => a

/-- TAKING A FATAL ERROR: "the core writes `halted <- 1`, `err <- code(E)`, `err_addr <- a`, and nothing else"
(60_exceptions.md R110). The state given is the one before the step, whose changes are discarded (00_scope.md R8,
44_cycle.md R101). There is no return from it: only reset leaves the halted state (60_exceptions.md R113). -/
def State.raise (s : State) (e : FatalError) : State :=
  { s with halted := true, err := e.code, errAddr := e.addr }

/-- The end of an instruction that may raise: its new state, or the fatal error taken in the state `s` it began with. -/
def State.commit (s : State) : Except FatalError State → State
  | .ok t => t
  | .error e => s.raise e

end Sys2Proof.Machine
end

