-- ==== Sys2Proof/Machine/Operands.lean ====
section
/-! DEFINITION. Every operand form of the instruction set (spec 30_encoding.md R46): register operands are
`State.reg` of Ops.lean and immediates stand as they are; the rest is here. -/

namespace Sys2Proof.Machine

/-- `zext_16(nnn)`: the 12-bit address as a 16-bit value (30_encoding.md R46). -/
def zext16 (nnn : Addr) : Word := nnn.setWidth 16

/-- The target of JP V0, nnn: `zext_16(nnn) + zext_16(V[0])`, not masked (40_control_flow.md R65, 10_state.md R16). -/
def State.offsetTarget (s : State) (nnn : Addr) : Word := zext16 nnn + (s.reg 0).setWidth 16

/-- The source operand of SHR and SHL, by SHIFT_SRC (41_data_alu.md R79). -/
def State.shiftSource (s : State) (x y : Reg) : Byte :=
  match s.cfg.shiftSrc with
  | .vy => s.reg y
  | .vx => s.reg x

/-- The memory operand of DRW: `mem[I], ..., mem[I+n-1]` (42_display.md R86, 20_memory.md R33). -/
def State.spriteRows (s : State) (n : Fin 16) : Except FatalError (List Byte) := s.memRead s.i.toNat n.val

/-- Where a sprite pixel lands, if anywhere: `place(cx, cy)` of 42_display.md R87. -/
def place (edge : DrawEdge) (cx cy : Nat) : Option Pixel :=
  match edge with
  | .wrap => some (⟨cx % 64, by omega⟩, ⟨cy % 32, by omega⟩)
  | .clip => if h : cx < 64 ∧ cy < 32 then some (⟨cx, h.1⟩, ⟨cy, h.2⟩) else none

/-- The pixels that the 1 bits of one sprite row land on, the row's leftmost bit, bit 7, at `(cx, cy)` (42_display.md
R86, R88). -/
def rowPoints (edge : DrawEdge) (cx cy : Nat) (row : Byte) : List Pixel :=
  (List.range 8).filterMap fun col => if row.getLsbD (7 - col) then place edge (cx + col) cy else none

/-- The pixels that the 1 bits of a sprite land on, its first row at `(cx, cy)` and each further row one below
(42_display.md R86). -/
def spritePoints (edge : DrawEdge) (cx : Nat) : Nat → List Byte → List Pixel
  | _, [] => []
  | cy, row :: rows => rowPoints edge cx cy row ++ spritePoints edge cx (cy + 1) rows

end Sys2Proof.Machine
end

