-- ==== Sys2Proof/Machine/Flags.lean ====
section
/-! DEFINITION. Every flag computation (spec 10_state.md section 4, 41_data_alu.md R67, R69). VF is the only flag
register and a flagged operation writes exactly 0 or 1 to it (10_state.md R12). -/

namespace Sys2Proof.Machine

/-- A flag as the value of a register: 0 or 1. -/
def flagByte (c : Bool) : Byte := if c then 1 else 0

/-- ADD Vx, Vy: the mathematical sum exceeds 255 (41_data_alu.md R76). -/
def carryOut (a b : Byte) : Bool := 255 < a.toNat + b.toNat

/-- SUB, SUBN: minuend at least subtrahend, no borrow (41_data_alu.md R77, R78). -/
def noBorrow (minuend subtrahend : Byte) : Bool := subtrahend.toNat ≤ minuend.toNat

/-- SHR: bit 0 of the source before the shift (41_data_alu.md R80). -/
def shiftedOutRight (src : Byte) : Bool := src.getLsbD 0

/-- SHL: bit 7 of the source before the shift (41_data_alu.md R81). -/
def shiftedOutLeft (src : Byte) : Bool := src.getLsbD 7

/-- The two writes of a flagged operation: the result to `V[x]`, then the flag to VF, "the flag is written last and
wins" (41_data_alu.md R69). Both values were computed before (R68). -/
def State.setRegFlag (s : State) (x : Reg) (result : Byte) (flag : Bool) : State :=
  (s.setReg x result).setReg VF (flagByte flag)

end Sys2Proof.Machine
end

