-- ==== Sys2Proof/Machine/ControlFlow.lean ====
section
/-! DEFINITION. The control-transfer instructions (spec 40_control_flow.md). Each sets pc exactly once and writes no
general register (R57). -/

namespace Sys2Proof.Machine

/-- RET (40_control_flow.md R58): the popped value goes to pc as it is. -/
def execRet (s : State) : Result := .next (s.commit (s.pop.map fun p => p.2.setPc p.1))

/-- JP nnn (40_control_flow.md R59). -/
def execJp (nnn : Addr) (s : State) : Result := .next (s.setPc (zext16 nnn))

/-- CALL nnn (40_control_flow.md R60): saves the return address `pc + 2` (90_conflicts.md C1). -/
def execCall (nnn : Addr) (s : State) : Result :=
  .next (s.commit ((s.push (s.pc + 2)).map fun t => t.setPc (zext16 nnn)))

/-- SE Vx, kk (40_control_flow.md R61). -/
def execSeImm (x : Reg) (kk : Byte) (s : State) : Result := .next (s.skipIf (s.reg x == kk))

/-- SNE Vx, kk (40_control_flow.md R62). -/
def execSneImm (x : Reg) (kk : Byte) (s : State) : Result := .next (s.skipIf (s.reg x != kk))

/-- SE Vx, Vy (40_control_flow.md R63). -/
def execSeReg (x y : Reg) (s : State) : Result := .next (s.skipIf (s.reg x == s.reg y))

/-- SNE Vx, Vy (40_control_flow.md R64). -/
def execSneReg (x y : Reg) (s : State) : Result := .next (s.skipIf (s.reg x != s.reg y))

/-- JP V0, nnn (40_control_flow.md R65). -/
def execJpV0 (nnn : Addr) (s : State) : Result := .next (s.setPc (s.offsetTarget nnn))

end Sys2Proof.Machine
end

