-- ==== Sys2Proof/Machine/DataAlu.lean ====
section
/-! DEFINITION. The load, arithmetic, logic, shift, index and random instructions (spec 41_data_alu.md). Each completes
with `pc <- pc + 2` and raises nothing (R67), and reads all its sources before it writes (R68). -/

namespace Sys2Proof.Machine

/-- LD Vx, kk (41_data_alu.md R70). -/
def execLdImm (x : Reg) (kk : Byte) (s : State) : Result := .next (s.setReg x kk).advance

/-- ADD Vx, kk (41_data_alu.md R71): no flag. -/
def execAddImm (x : Reg) (kk : Byte) (s : State) : Result := .next (s.setReg x (s.reg x + kk)).advance

/-- LD Vx, Vy (41_data_alu.md R72). -/
def execLdReg (x y : Reg) (s : State) : Result := .next (s.setReg x (s.reg y)).advance

/-- OR Vx, Vy (41_data_alu.md R73): no flag. -/
def execOrReg (x y : Reg) (s : State) : Result := .next (s.setReg x (s.reg x ||| s.reg y)).advance

/-- AND Vx, Vy (41_data_alu.md R74): no flag. -/
def execAndReg (x y : Reg) (s : State) : Result := .next (s.setReg x (s.reg x &&& s.reg y)).advance

/-- XOR Vx, Vy (41_data_alu.md R75): no flag. -/
def execXorReg (x y : Reg) (s : State) : Result := .next (s.setReg x (s.reg x ^^^ s.reg y)).advance

/-- ADD Vx, Vy (41_data_alu.md R76). -/
def execAddReg (x y : Reg) (s : State) : Result :=
  .next (s.setRegFlag x (s.reg x + s.reg y) (carryOut (s.reg x) (s.reg y))).advance

/-- SUB Vx, Vy (41_data_alu.md R77): "X - Y". -/
def execSubReg (x y : Reg) (s : State) : Result :=
  .next (s.setRegFlag x (s.reg x - s.reg y) (noBorrow (s.reg x) (s.reg y))).advance

/-- SUBN Vx, Vy (41_data_alu.md R78): "Y - X", still to Vx. -/
def execSubn (x y : Reg) (s : State) : Result :=
  .next (s.setRegFlag x (s.reg y - s.reg x) (noBorrow (s.reg y) (s.reg x))).advance

/-- SHR Vx, Vy (41_data_alu.md R80): a logical shift by one. -/
def execShr (x y : Reg) (s : State) : Result :=
  .next (s.setRegFlag x (s.shiftSource x y >>> 1) (shiftedOutRight (s.shiftSource x y))).advance

/-- SHL Vx, Vy (41_data_alu.md R81). -/
def execShl (x y : Reg) (s : State) : Result :=
  .next (s.setRegFlag x (s.shiftSource x y <<< 1) (shiftedOutLeft (s.shiftSource x y))).advance

/-- LD I, nnn (41_data_alu.md R83). -/
def execLdI (nnn : Addr) (s : State) : Result := .next (s.setIndex (zext16 nnn)).advance

/-- RND Vx, kk (41_data_alu.md R82): one sample of the random source, ANDed with the immediate. -/
def execRnd (x : Reg) (kk : Byte) (s : State) : Result :=
  .next (s.consumeRnd.setReg x (s.rndByte &&& kk)).advance

end Sys2Proof.Machine
end

