-- ==== Sys2Proof/Machine/Display.lean ====
section
/-! DEFINITION. The display instructions (spec 42_display.md). -/

namespace Sys2Proof.Machine

/-- CLS (42_display.md R85): VF is not written. -/
def execCls (s : State) : Result := .next (s.showDisplay Display.blank).advance

/-- The completed effect of DRW on the state it began with, given the sprite's bytes: coordinates and sprite were
latched before VF is written (42_display.md R86, 41_data_alu.md R68). -/
def State.drawSprite (s : State) (x y : Reg) (rows : List Byte) : State :=
  let r := s.disp.draw (spritePoints s.cfg.drawEdge (s.reg x).toNat (s.reg y).toNat rows)
  ((s.showDisplay r.1).setReg VF (flagByte r.2)).advance

/-- DRW Vx, Vy, n (42_display.md R86): the whole sprite is checked against the end of memory before anything is
written. -/
def execDrw (x y : Reg) (n : Fin 16) (s : State) : Result :=
  .next (s.commit ((s.spriteRows n).map fun rows => s.drawSprite x y rows))

end Sys2Proof.Machine
end

