-- ==== Sys2Proof/Machine/Unknown.lean ====
section
/-! DEFINITION. The unknown instruction (spec 43_unknown.md): every word that no row of the opcode map matches. It is no
row of the opcode table and so no constructor of `Instr`; the step runs this meaning for it (log entry 5). -/

namespace Sys2Proof.Machine

/-- UNKNOWN (43_unknown.md R91): `unk_seen <- 1; pc <- pc + 2`. The warning event is the step's output (Cycle.lean). -/
def execUnknown (s : State) : Result := .next s.markUnknown.advance

end Sys2Proof.Machine
end

