-- ==== Sys2Proof/Machine/HostMoves.lean ====
section
/-! DEFINITION. What the host does to the core between two steps (spec 44_cycle.md R102 to R106, 70_reset_and_hazards.md
R122): each move is atomic, emits no event and is accepted in every state, also while halted. -/

namespace Sys2Proof.Machine

/-- Reset as a move: every piece of state of 10_state.md R10 to its reset value, whatever it was
(70_reset_and_hazards.md R122); the parameters are "not affected" (R123), and neither is the random source, which is
the host's (log entry 16). -/
def State.restart (s : State) : State :=
  { State.reset with cfg := s.cfg, rndIn := s.rndIn, rndDraws := s.rndDraws }

/-- One byte through the loader port; the address is 12 bits, so it is always inside memory (44_cycle.md R103). -/
def State.loadByte (s : State) (addr : Addr) (b : Byte) : State := { s with mem := s.mem.write addr.toNat b }

/-- The effect of a host move (44_cycle.md R102 to R106). -/
def hostMove (m : HostMove) (s : State) : State :=
  match m with
  | .reset => s.restart
  | .load addr b => s.loadByte addr b
  | .writeDT b => { s with dt := b }
  | .writeST b => { s with st := b }
  | .clearDirty => { s with dirty := false }
  | .presentRnd bytes => { s with rndIn := bytes }

/-- The loader moves that put a program's bytes to `base` and up: "the moves `mem[0x200 + i] <- b[i]`" (44_cycle.md
R103, with base 0x200). -/
def loadMoves : Nat → Program → List HostMove
  | _, [] => []
  | base, b :: p => .load (BitVec.ofNat 12 base) b :: loadMoves (base + 1) p

/-- A program loaded at 0x200 (44_cycle.md R103, 70_reset_and_hazards.md R125). -/
def State.loadProgram (s : State) (p : Program) : State := (loadMoves progBase p).foldl (fun t m => hostMove m t) s

/-- The renderer's read port: `disp_px = disp[disp_ry][disp_rx]`, without side effect (44_cycle.md R105). -/
def State.displayPort (s : State) (rx : BitVec 6) (ry : BitVec 5) : Bool :=
  s.disp.pixel (⟨rx.toNat, rx.isLt⟩, ⟨ry.toNat, ry.isLt⟩)

end Sys2Proof.Machine
end

