-- ==== Sys2Proof/Machine/Cycle.lean ====
section
/-! DEFINITION. The step as the spec gives it, "State x Byte -> State x Events" (44_cycle.md R94): fetch, decode,
execute, tick, with the events of the step beside the next state. Also the placing of one instruction where the next
fetch reads. -/

namespace Sys2Proof.Machine

/-- What follows the instruction in a step (44_cycle.md R94, R98): if it raised a fatal error, nothing, no tick and no
event (R101); else the tick, with the beep edge and the warning of this step. -/
def State.finish (s : State) (warn : Option Word) : State × Events :=
  if s.halted then (s, Events.none) else (s.tick, { beep := s.beepEdge, warn := warn })

/-- An instruction's answer carried to the end of the step. -/
def finishStep (warn : Option Word) : Result → Host.Outcome (State × Events) Fault Refusal
  | .next t => .next (t.finish warn)
  | .fault f => .fault f
  | .refused r => .refused r

/-- Decode and execute the fetched word (44_cycle.md R94, R97; 30_encoding.md R47): an UNKNOWN word's warning names the
word (43_unknown.md R91). -/
def runWord (w : Word) (s : State) : Host.Outcome (State × Events) Fault Refusal :=
  match decode w with
  | .instr i => finishStep none (exec i s)
  | .unknown u => finishStep (some u) (execUnknown s)

/-- One step with its events (44_cycle.md R94): ignored while halted (R95); a fetch that leaves memory is fatal (R96). -/
def cycle (s : State) : Host.Outcome (State × Events) Fault Refusal :=
  if s.halted then .next (s, Events.none)
  else
    match s.fetch with
    | .error e => .next (s.raise e, Events.none)
    | .ok w => runWord w s

/-- The next state of a step, less its events. -/
def nextState : Host.Outcome (State × Events) Fault Refusal → Result
  | .next p => .next p.1
  | .fault f => .fault f
  | .refused r => .refused r

/-- The events of the step taken from a state (44_cycle.md R100). -/
def State.events (s : State) : Events :=
  match cycle s with
  | .next p => p.2
  | .fault _ => Events.none
  | .refused _ => Events.none

/-- The state made ready for a fetch: not halted (44_cycle.md R95), and pc at 0x200 where it holds no address that an
instruction can be fetched at (R96). A state that can fetch is not changed. -/
def State.readyToFetch (s : State) : State :=
  let t := if s.halted then { s with halted := false, err := .none, errAddr := 0 } else s
  if t.pc.toNat ≤ 0xFFE then t else t.setPc 0x0200

/-- The word stored at `pc`, high byte first (20_memory.md R32), in the way the loader stores it (44_cycle.md R103). -/
def State.placeWord (s : State) (w : Word) : State :=
  { s with mem := (s.mem.write s.pc.toNat (highByte w)).write (s.pc.toNat + 1) (lowByte w) }

end Sys2Proof.Machine
end

