-- ==== Sys2Proof/Machine/Step.lean ====
section
/-! DEFINITION. One step (spec 44_cycle.md R94), and one instruction placed where the next step fetches it. -/

namespace Sys2Proof.Machine

/-- One step: the next state of `cycle`. -/
def step (s : State) : Host.Outcome State Fault Refusal := nextState (cycle s)

/-- The instruction whose bits are `w`, numbered as spec/opcode_table.json numbers them, stored where the next step
fetches: at `pc`, big-endian. It stands for the loader (44_cycle.md R103; log entry 11). -/
def State.withFetchWord (s : State) (nbits w : Nat) : State :=
  s.readyToFetch.placeWord (BitVec.ofNat 16 (w % 2 ^ nbits))

end Sys2Proof.Machine
end

