-- ==== Sys2Proof/Safety.lean ====
section
/-! DEFINITION. The terms that claims about the machine use: a running machine, the invariant of spec 10_state.md R28,
runs as sequences of steps and host moves (44_cycle.md R102), what a transition leaves unchanged, and the word at pc. -/

namespace Sys2Proof.Machine

/-! ## Safe states -/

/-- The core is not halted by a fatal error: "A halted state is not a normal end of a program: a model should treat it
as a fault, never as a final state" (60_exceptions.md R112). -/
def State.Running (s : State) : Prop := s.halted = false

/-- The stricter reading that the spec allows the caller (43_unknown.md R92): running, and no UNKNOWN executed. -/
def State.RunningKnown (s : State) : Prop := s.halted = false ∧ s.unkSeen = false

/-- The invariant of 10_state.md R28, with what makes it inductive: memory in its canonical form, and every saved
program counter at most 0x1000, since CALL saves `pc + 2` with `pc <= 0x0FFE` (10_state.md R16). The bounds on `sp` and
`err` that R28 names are in the types. -/
structure State.Inv (s : State) : Prop where
  memoryCanonical : s.mem.wf = true
  indexInMemory : s.i.toNat ≤ 0x0FFF
  pcBounded : s.pc.toNat ≤ 0x10FE
  savedPcsBounded : ∀ k : Fin 16, s.stack[k].toNat ≤ 0x1000
  haltedIffErr : s.halted = true ↔ s.err ≠ ErrCode.none
  errAddrOnlyOutOfBounds : s.errAddr ≠ 0 → s.err = ErrCode.outOfBoundsAccess

/-! ## Runs -/

/-- One element of a run (44_cycle.md R102): a step, or a host move. -/
inductive Move where
  | step
  | host (m : HostMove)
deriving DecidableEq, Repr

/-- The effect of one element of a run, with its events: a host move emits none (44_cycle.md R104,
70_reset_and_hazards.md R123). -/
def Move.apply (m : Move) (s : State) : Host.Outcome (State × Events) Fault Refusal :=
  match m with
  | .step => cycle s
  | .host h => .next (hostMove h s, Events.none)

/-- A state reached from another by steps and host moves. -/
inductive Reaches (s : State) : State → Prop where
  | start : Reaches s s
  | move (t u : State) (m : Move) (ev : Events) : Reaches s t → m.apply t = .next (u, ev) → Reaches s u

/-! ## What a transition leaves unchanged -/

/-- The parts of the state beside the general registers, memory and the parameters. -/
inductive Part where
  | index
  | pc
  /-- `stack` and `sp` -/
  | stack
  /-- `disp` and `dirty` -/
  | display
  | timers
  /-- `halted`, `err`, `err_addr` -/
  | errors
  | unkSeen
  /-- the model's own `rndIn` and `rndDraws` -/
  | random
deriving DecidableEq, Repr

/-- From `s` to `t`, nothing changed but the registers `regs` and the parts `parts`: every other register, every other
part, and always every byte of memory and the parameters, are as before. -/
structure Frame (regs : List Reg) (parts : List Part) (s t : State) : Prop where
  regs : ∀ r, r ∉ regs → t.reg r = s.reg r
  memory : ∀ a, t.mem.read a = s.mem.read a
  cfg : t.cfg = s.cfg
  index : Part.index ∉ parts → t.i = s.i
  pc : Part.pc ∉ parts → t.pc = s.pc
  stack : Part.stack ∉ parts → t.sp = s.sp ∧ ∀ k : Fin 16, t.stack[k] = s.stack[k]
  display : Part.display ∉ parts → (∀ p, t.disp.pixel p = s.disp.pixel p) ∧ t.dirty = s.dirty
  timers : Part.timers ∉ parts → t.dt = s.dt ∧ t.st = s.st
  errors : Part.errors ∉ parts → t.halted = s.halted ∧ t.err = s.err ∧ t.errAddr = s.errAddr
  unkSeen : Part.unkSeen ∉ parts → t.unkSeen = s.unkSeen
  random : Part.random ∉ parts → t.rndIn = s.rndIn ∧ t.rndDraws = s.rndDraws

/-! ## Spec tables that claims are held against -/

/-- The word at pc: `w = mem[pc] ++ mem[pc+1]`, `mem[pc]` in bits 15:8 (20_memory.md R32). -/
def State.wordAtPc (s : State) : Word := s.mem.read s.pc.toNat ++ s.mem.read (s.pc.toNat + 1)

/-- The table of 10_state.md R15, for an instruction that completes. -/
def pcAfter (i : Instr) (s : State) : Word :=
  match i with
  | .jp nnn | .call nnn => BitVec.ofNat 16 nnn.toNat
  | .jpV0 nnn => BitVec.ofNat 16 (nnn.toNat + (s.reg 0).toNat)
  | .ret => s.stack.toList.getD (s.sp.val - 1) 0
  | .seImm x kk => if s.reg x = kk then s.pc + 4 else s.pc + 2
  | .sneImm x kk => if s.reg x ≠ kk then s.pc + 4 else s.pc + 2
  | .seReg x y => if s.reg x = s.reg y then s.pc + 4 else s.pc + 2
  | .sneReg x y => if s.reg x ≠ s.reg y then s.pc + 4 else s.pc + 2
  | .cls | .ldImm _ _ | .addImm _ _ | .ldReg _ _ | .orReg _ _ | .andReg _ _ | .xorReg _ _ | .addReg _ _
  | .subReg _ _ | .shr _ _ | .subn _ _ | .shl _ _ | .ldI _ | .rnd _ _ | .drw _ _ _ => s.pc + 2

/-- The six flagged operations (10_state.md R12). -/
def flagged (i : Instr) : Bool :=
  match i with
  | .addReg _ _ | .subReg _ _ | .subn _ _ | .shr _ _ | .shl _ _ | .drw _ _ _ => true
  | .cls | .ret | .jp _ | .call _ | .seImm _ _ | .sneImm _ _ | .seReg _ _ | .ldImm _ _ | .addImm _ _
  | .ldReg _ _ | .orReg _ _ | .andReg _ _ | .xorReg _ _ | .sneReg _ _ | .ldI _ | .jpV0 _ | .rnd _ _ => false

/-- The general register an instruction names as its destination: its `x` field where R13 lists `V[x]` among the
registers it writes. -/
def destination (i : Instr) : Option Reg :=
  match i with
  | .ldImm x _ | .addImm x _ | .rnd x _ | .ldReg x _ | .orReg x _ | .andReg x _ | .xorReg x _ | .addReg x _
  | .subReg x _ | .subn x _ | .shr x _ | .shl x _ => some x
  | .cls | .ret | .jp _ | .call _ | .seImm _ _ | .sneImm _ _ | .seReg _ _ | .sneReg _ _ | .ldI _ | .jpV0 _
  | .drw _ _ _ => none

/-- The same machine state under another DRAW_EDGE. -/
def State.withDrawEdge (s : State) (e : DrawEdge) : State :=
  { s with cfg := { drawEdge := e, shiftSrc := s.cfg.shiftSrc } }

/-- Where a sprite pixel at the unreduced coordinates `(cx, cy)` lands (42_display.md R87). -/
def Lands (edge : DrawEdge) (cx cy : Nat) (p : Pixel) : Prop :=
  match edge with
  | .wrap => p.1.val = cx % 64 ∧ p.2.val = cy % 32
  | .clip => p.1.val = cx ∧ p.2.val = cy

/-- The pixel `p` is under a placed 1 bit of the sprite of `n` rows at `mem[I]` drawn at `(V[x], V[y])`: bit 7 of a
byte is column offset 0 (42_display.md R86 to R88). -/
def Covered (s : State) (x y : Reg) (n : Nat) (p : Pixel) : Prop :=
  ∃ row col : Nat, row < n ∧ col < 8 ∧ (s.mem.read (s.i.toNat + row)).getLsbD (7 - col) = true ∧
    Lands s.cfg.drawEdge ((s.reg x).toNat + col) ((s.reg y).toNat + row) p

/-- The table of flags of 10_state.md section 4: when a flagged operation leaves 1 in VF. -/
def FlagCondition (i : Instr) (s : State) : Prop :=
  match i with
  | .addReg x y => 255 < (s.reg x).toNat + (s.reg y).toNat
  | .subReg x y => (s.reg y).toNat ≤ (s.reg x).toNat
  | .subn x y => (s.reg x).toNat ≤ (s.reg y).toNat
  | .shr x y => (if s.cfg.shiftSrc = .vy then s.reg y else s.reg x).toNat % 2 = 1
  | .shl x y => 128 ≤ (if s.cfg.shiftSrc = .vy then s.reg y else s.reg x).toNat
  | .drw x y n => ∃ p, s.disp.pixel p = true ∧ Covered s x y n.val p
  | .cls | .ret | .jp _ | .call _ | .seImm _ _ | .sneImm _ _ | .seReg _ _ | .ldImm _ _ | .addImm _ _
  | .ldReg _ _ | .orReg _ _ | .andReg _ _ | .xorReg _ _ | .sneReg _ _ | .ldI _ | .jpV0 _ | .rnd _ _ => False

/-- When an instruction raises no fatal error of its own (60_exceptions.md R109). -/
def CanComplete (i : Instr) (s : State) : Prop :=
  match i with
  | .call _ => s.sp.val < 16
  | .ret => 0 < s.sp.val
  | .drw _ _ n => n.val = 0 ∨ s.i.toNat + n.val ≤ 0x1000
  | .cls | .jp _ | .seImm _ _ | .sneImm _ _ | .seReg _ _ | .ldImm _ _ | .addImm _ _ | .ldReg _ _ | .orReg _ _
  | .andReg _ _ | .xorReg _ _ | .addReg _ _ | .subReg _ _ | .shr _ _ | .subn _ _ | .shl _ _ | .sneReg _ _
  | .ldI _ | .jpV0 _ | .rnd _ _ => True

/-- The four outcomes of a step (44_cycle.md R100). -/
inductive StepKind where
  | completed
  | completedWithWarning
  | faulted
  | ignored
deriving DecidableEq, Repr

/-- What each outcome says of a step from `s` to `t` with the events `ev` (44_cycle.md R95, R98, R100, R101). -/
def StepKind.Describes (k : StepKind) (s t : State) (ev : Events) : Prop :=
  match k with
  | .completed => s.halted = false ∧ t.halted = false ∧ s.pc.toNat ≤ 0xFFE ∧
      (∃ i, decode s.wordAtPc = .instr i) ∧ ev = { beep := decide (s.st = 1), warn := none } ∧
      t.dt.toNat = s.dt.toNat - 1 ∧ t.st.toNat = s.st.toNat - 1 ∧ t.unkSeen = s.unkSeen
  | .completedWithWarning => s.halted = false ∧ t.halted = false ∧ s.pc.toNat ≤ 0xFFE ∧
      decode s.wordAtPc = .unknown s.wordAtPc ∧
      ev = { beep := decide (s.st = 1), warn := some s.wordAtPc } ∧
      t.dt.toNat = s.dt.toNat - 1 ∧ t.st.toNat = s.st.toNat - 1 ∧ t.unkSeen = true
  | .faulted => s.halted = false ∧ t.halted = true ∧ t.err ≠ .none ∧ ev = Events.none ∧
      t = { s with halted := true, err := t.err, errAddr := t.errAddr }
  | .ignored => s.halted = true ∧ t = s ∧ ev = Events.none

end Sys2Proof.Machine
end

