-- ==== Sys2Proof/Certificates/Slice0/Obligations.lean ====
section
/-! DEFINITION. The statements about the model, for the provers. Each docstring names the rules of spec/ it formalises.
"D<n>" are the spec's own decisions (92_eei_decisions.md): a statement that rests on one is marked 'derived' in
OBLIGATIONS.json and cites the spec's sections. Every clause that decodes a word rests on the field positions and opcode
values that the spec takes from general knowledge (D2, D3; log entry 12). `Frame` (Safety.lean) says what is left
unchanged, every byte of memory among it. -/

open Sys2Proof Sys2Proof.Machine

/-! ## Encoding -/

/-- 30_encoding.md R44, R47, R48: decoding the word (or the two bytes) of any instruction, with every operand at every
value, gives that instruction back. -/
def Obligations.EncodeThenDecodeGivesTheInstruction : Prop :=
  ∀ i : Instr, decode (encode i) = .instr i ∧
    decodeBytes (highByte (encode i)) (lowByte (encode i)) = .instr i

/-- 30_encoding.md R47, R53: a word that decodes to an instruction is that instruction's word, so no bit of it is
ignored; a word that decodes to UNKNOWN is reported whole. -/
def Obligations.DecodedWordIsTheEncodingOfItsInstruction : Prop :=
  ∀ w : Word, (∀ i, decode w = .instr i → encode i = w) ∧ ∀ u, decode w = .unknown u → u = w

/-- 30_encoding.md R45 (D2): the six slices of the instruction word, as numbers. -/
def Obligations.FieldsAreTheSlicesOfTheWord : Prop :=
  ∀ w : Word, (fields w).op.toNat = w.toNat / 4096 ∧ (fields w).x.val = w.toNat / 256 % 16 ∧
    (fields w).y.val = w.toNat / 16 % 16 ∧ (fields w).n.toNat = w.toNat % 16 ∧
    (fields w).kk.toNat = w.toNat % 256 ∧ (fields w).nnn.toNat = w.toNat % 4096

/-- 30_encoding.md R47, R48 (D3): the decoder agrees with the opcode map written as masks and matches: a word that a
row matches decodes to that row's instruction with its fields, a word that no row matches is UNKNOWN, and no word
matches two of the 23 rows. -/
def Obligations.DecoderAgreesWithTheOpcodeMap : Prop :=
  (∀ w : Word, (∀ r ∈ opcodeMap, w &&& r.mask = r.pattern → decode w = .instr (r.build (fields w))) ∧
    ((∀ r ∈ opcodeMap, w &&& r.mask ≠ r.pattern) → decode w = .unknown w)) ∧
  opcodeMap.length = 23 ∧
  opcodeMap.Pairwise fun r r' => ∀ w : Word, ¬ (w &&& r.mask = r.pattern ∧ w &&& r'.mask = r'.pattern)

/-- 30_encoding.md R49 to R52 (D4): exactly which words are UNKNOWN. -/
def Obligations.UnknownWordsAreExactlyTheUnassignedOnes : Prop :=
  ∀ w : Word, decode w = .unknown w ↔
    (w.toNat / 4096 = 0 ∧ w.toNat ≠ 0x00E0 ∧ w.toNat ≠ 0x00EE) ∨
    ((w.toNat / 4096 = 5 ∨ w.toNat / 4096 = 9) ∧ w.toNat % 16 ≠ 0) ∨
    (w.toNat / 4096 = 8 ∧ 8 ≤ w.toNat % 16 ∧ w.toNat % 16 ≠ 0xE) ∨
    w.toNat / 4096 = 0xE ∨ w.toNat / 4096 = 0xF

/-- 30_encoding.md section 6 and 95_test_vectors.md: words written out by hand decode to what they stand for. -/
def Obligations.SampleWordsDecode : Prop :=
  decode 0x00E0#16 = .instr .cls ∧ decode 0x00EE#16 = .instr .ret ∧
  decode 0x22F0#16 = .instr (.call 0x2F0) ∧ decode 0x632A#16 = .instr (.ldImm 3 0x2A) ∧
  decode 0x8ABE#16 = .instr (.shl 0xA 0xB) ∧ decode 0xA20A#16 = .instr (.ldI 0x20A) ∧
  decode 0xD125#16 = .instr (.drw 1 2 5) ∧ decode 0x5121#16 = .unknown 0x5121

/-! ## Loads, arithmetic, logic, shifts -/

/-- 41_data_alu.md R70 (the decoding clause: D2, D3, log entry 12): LD Vx, kk. -/
def Obligations.LoadImmediateWritesTheRegister : Prop :=
  ∀ (x : Reg) (kk : Byte), decode (BitVec.ofNat 16 (0x6000 + x.val * 256 + kk.toNat)) = .instr (.ldImm x kk) ∧
    ∀ s : State, ∃ t, exec (.ldImm x kk) s = .next t ∧ t.reg x = kk ∧ t.pc = s.pc + 2 ∧ Frame [x] [.pc] s t

/-- 41_data_alu.md R71 (the decoding clause: D2, D3, log entry 12): ADD Vx, kk wraps and writes no flag (with x = 0xF,
VF is an ordinary destination). -/
def Obligations.AddImmediateWrapsWithoutFlag : Prop :=
  ∀ (x : Reg) (kk : Byte), decode (BitVec.ofNat 16 (0x7000 + x.val * 256 + kk.toNat)) = .instr (.addImm x kk) ∧
    ∀ s : State, ∃ t, exec (.addImm x kk) s = .next t ∧
      (t.reg x).toNat = ((s.reg x).toNat + kk.toNat) % 256 ∧ t.pc = s.pc + 2 ∧ Frame [x] [.pc] s t

/-- 41_data_alu.md R72 (the decoding clause: D2, D3, log entry 12): LD Vx, Vy. -/
def Obligations.RegisterCopyWritesTheRegister : Prop :=
  ∀ x y : Reg, decode (BitVec.ofNat 16 (0x8000 + x.val * 256 + y.val * 16)) = .instr (.ldReg x y) ∧
    ∀ s : State, ∃ t, exec (.ldReg x y) s = .next t ∧ t.reg x = s.reg y ∧ t.pc = s.pc + 2 ∧ Frame [x] [.pc] s t

/-- 41_data_alu.md R73, R74, R75 (the decoding clauses: D2, D3, log entry 12): OR, AND and XOR bit by bit, without a
flag. -/
def Obligations.BitwiseOperationsActBitByBitWithoutFlag : Prop :=
  ∀ x y : Reg,
    decode (BitVec.ofNat 16 (0x8001 + x.val * 256 + y.val * 16)) = .instr (.orReg x y) ∧
    decode (BitVec.ofNat 16 (0x8002 + x.val * 256 + y.val * 16)) = .instr (.andReg x y) ∧
    decode (BitVec.ofNat 16 (0x8003 + x.val * 256 + y.val * 16)) = .instr (.xorReg x y) ∧
    ∀ s : State,
      (∃ t, exec (.orReg x y) s = .next t ∧ t.pc = s.pc + 2 ∧ Frame [x] [.pc] s t ∧
        ∀ k < 8, (t.reg x).getLsbD k = true ↔ ((s.reg x).getLsbD k = true ∨ (s.reg y).getLsbD k = true)) ∧
      (∃ t, exec (.andReg x y) s = .next t ∧ t.pc = s.pc + 2 ∧ Frame [x] [.pc] s t ∧
        ∀ k < 8, (t.reg x).getLsbD k = true ↔ ((s.reg x).getLsbD k = true ∧ (s.reg y).getLsbD k = true)) ∧
      (∃ t, exec (.xorReg x y) s = .next t ∧ t.pc = s.pc + 2 ∧ Frame [x] [.pc] s t ∧
        ∀ k < 8, (t.reg x).getLsbD k = true ↔ ((s.reg x).getLsbD k ≠ (s.reg y).getLsbD k))

/-- 41_data_alu.md R76 (the decoding clause: D2, D3, log entry 12; operands latched and the flag winning on x = 0xF: R68,
R69, D6): ADD Vx, Vy with the carry in VF. With x = 0xF the carry is what VF holds and the sum is lost; sources are the
registers' values before the instruction, whichever registers they are. -/
def Obligations.AddRegistersSetsTheCarry : Prop :=
  ∀ x y : Reg, decode (BitVec.ofNat 16 (0x8004 + x.val * 256 + y.val * 16)) = .instr (.addReg x y) ∧
    ∀ s : State, ∃ t, exec (.addReg x y) s = .next t ∧
      (x ≠ 0xF → (t.reg x).toNat = ((s.reg x).toNat + (s.reg y).toNat) % 256) ∧
      (t.reg 0xF).toNat = (if 255 < (s.reg x).toNat + (s.reg y).toNat then 1 else 0) ∧
      t.pc = s.pc + 2 ∧ Frame [x, 0xF] [.pc] s t

/-- 41_data_alu.md R77, R78 (the decoding clauses: D2, D3, log entry 12; operands latched and the flag winning on
x = 0xF: R68, R69, D6): SUB (X - Y) and SUBN (Y - X), with VF = 1 for no borrow; equal operands give 1. -/
def Obligations.SubtractionsSetNoBorrow : Prop :=
  ∀ x y : Reg,
    decode (BitVec.ofNat 16 (0x8005 + x.val * 256 + y.val * 16)) = .instr (.subReg x y) ∧
    decode (BitVec.ofNat 16 (0x8007 + x.val * 256 + y.val * 16)) = .instr (.subn x y) ∧
    ∀ s : State,
      (∃ t, exec (.subReg x y) s = .next t ∧
        (x ≠ 0xF → (t.reg x).toNat = ((s.reg x).toNat + 256 - (s.reg y).toNat) % 256) ∧
        (t.reg 0xF).toNat = (if (s.reg x).toNat ≥ (s.reg y).toNat then 1 else 0) ∧
        t.pc = s.pc + 2 ∧ Frame [x, 0xF] [.pc] s t) ∧
      (∃ t, exec (.subn x y) s = .next t ∧
        (x ≠ 0xF → (t.reg x).toNat = ((s.reg y).toNat + 256 - (s.reg x).toNat) % 256) ∧
        (t.reg 0xF).toNat = (if (s.reg y).toNat ≥ (s.reg x).toNat then 1 else 0) ∧
        t.pc = s.pc + 2 ∧ Frame [x, 0xF] [.pc] s t)

/-- 41_data_alu.md R80, R81 (the decoding clauses: D2, D3, log entry 12; SHIFT_SRC: D5, log entry 1; x = 0xF: R69, D6):
SHR and SHL by one, the source chosen by SHIFT_SRC (both values), the bit shifted out in VF; V[y] is not modified unless
it is the destination or VF. -/
def Obligations.ShiftsMoveTheSourceByOne : Prop :=
  ∀ x y : Reg,
    decode (BitVec.ofNat 16 (0x8006 + x.val * 256 + y.val * 16)) = .instr (.shr x y) ∧
    decode (BitVec.ofNat 16 (0x800E + x.val * 256 + y.val * 16)) = .instr (.shl x y) ∧
    ∀ (s : State) (src : Byte), src = (if s.cfg.shiftSrc = .vy then s.reg y else s.reg x) →
      (∃ t, exec (.shr x y) s = .next t ∧ (x ≠ 0xF → (t.reg x).toNat = src.toNat / 2) ∧
        (t.reg 0xF).toNat = src.toNat % 2 ∧ t.pc = s.pc + 2 ∧ Frame [x, 0xF] [.pc] s t) ∧
      (∃ t, exec (.shl x y) s = .next t ∧ (x ≠ 0xF → (t.reg x).toNat = src.toNat * 2 % 256) ∧
        (t.reg 0xF).toNat = src.toNat / 128 ∧ t.pc = s.pc + 2 ∧ Frame [x, 0xF] [.pc] s t)

/-- 41_data_alu.md R83 (the decoding clause: D2, D3, log entry 12): LD I, nnn. -/
def Obligations.LoadIndexWritesTheIndexRegister : Prop :=
  ∀ nnn : Addr, decode (BitVec.ofNat 16 (0xA000 + nnn.toNat)) = .instr (.ldI nnn) ∧
    ∀ s : State, ∃ t, exec (.ldI nnn) s = .next t ∧ t.i.toNat = nnn.toNat ∧ t.pc = s.pc + 2 ∧
      Frame [] [.index, .pc] s t

/-- 41_data_alu.md R82, 44_cycle.md R106 (D19; log entry 2): RND Vx, kk ANDs one sample of the random source with kk: any
byte the host presents, and with none presented some byte (a free value: nothing is said of it). -/
def Obligations.RandomAndsOneSampleWithTheImmediate : Prop :=
  ∀ (x : Reg) (kk : Byte) (s : State),
    (∀ (r : Byte) (rest : List Byte), s.rndIn = r :: rest →
      ∃ t, exec (.rnd x kk) s = .next t ∧ t.reg x = r &&& kk ∧ t.rndIn = rest ∧ t.rndDraws = s.rndDraws ∧
        t.pc = s.pc + 2 ∧ Frame [x] [.pc, .random] s t) ∧
    (s.rndIn = [] →
      ∃ t r, exec (.rnd x kk) s = .next t ∧ t.reg x = r &&& kk ∧ t.rndIn = [] ∧ t.rndDraws = s.rndDraws + 1 ∧
        t.pc = s.pc + 2 ∧ Frame [x] [.pc, .random] s t)

/-! ## Control transfer -/

/-- 40_control_flow.md R59 (the decoding clause: D2, D3, log entry 12): JP nnn. -/
def Obligations.JumpSetsPc : Prop :=
  ∀ nnn : Addr, decode (BitVec.ofNat 16 (0x1000 + nnn.toNat)) = .instr (.jp nnn) ∧
    ∀ s : State, ∃ t, exec (.jp nnn) s = .next t ∧ t.pc.toNat = nnn.toNat ∧ Frame [] [.pc] s t

/-- 40_control_flow.md R65 (D14; the decoding clause: D2, D3, log entry 12): JP V0, nnn adds register 0, without
masking. -/
def Obligations.JumpWithOffsetAddsRegisterZero : Prop :=
  ∀ nnn : Addr, decode (BitVec.ofNat 16 (0xB000 + nnn.toNat)) = .instr (.jpV0 nnn) ∧
    ∀ s : State, ∃ t, exec (.jpV0 nnn) s = .next t ∧ t.pc.toNat = nnn.toNat + (s.reg 0).toNat ∧
      Frame [] [.pc] s t

/-- 40_control_flow.md R60 (the decoding clause: D2, D3, log entry 12; the halt and what it records: 60_exceptions.md
R108, R110, D10 to D12, log entry 3; the stack's layout: D23): CALL nnn pushes the return address, or raises StackOverflow
with a full stack and changes nothing else. -/
def Obligations.CallPushesTheReturnAddressOrOverflows : Prop :=
  ∀ nnn : Addr, decode (BitVec.ofNat 16 (0x2000 + nnn.toNat)) = .instr (.call nnn) ∧
    ∀ s : State,
      (s.sp.val < 16 → ∃ t, exec (.call nnn) s = .next t ∧ t.pc.toNat = nnn.toNat ∧ t.sp.val = s.sp.val + 1 ∧
        (∀ k : Fin 16, t.stack[k] = if k.val = s.sp.val then s.pc + 2 else s.stack[k]) ∧
        Frame [] [.pc, .stack] s t) ∧
      (s.sp.val = 16 → ∃ t, exec (.call nnn) s = .next t ∧ t.halted = true ∧ t.err = .stackOverflow ∧
        t.errAddr = 0 ∧ Frame [] [.errors] s t)

/-- 40_control_flow.md R58 (the decoding clause: D2, D3, log entry 12; the halt and what it records: 60_exceptions.md
R108, R110, D10 to D12, log entry 3; the stack's layout: D23): RET pops into pc as it is, or raises StackUnderflow with an
empty stack and changes nothing else; the popped entry is not erased. -/
def Obligations.ReturnPopsIntoPcOrUnderflows : Prop :=
  decode 0x00EE#16 = .instr .ret ∧
    ∀ s : State,
      (∀ k : Fin 16, s.sp.val = k.val + 1 → ∃ t, exec .ret s = .next t ∧ t.pc = s.stack[k] ∧ t.sp.val = k.val ∧
        (∀ j : Fin 16, t.stack[j] = s.stack[j]) ∧ Frame [] [.pc, .stack] s t) ∧
      (s.sp.val = 0 → ∃ t, exec .ret s = .next t ∧ t.halted = true ∧ t.err = .stackUnderflow ∧
        t.errAddr = 0 ∧ Frame [] [.errors] s t)

/-- 40_control_flow.md R61, R62 (the decoding clauses: D2, D3, log entry 12): SE and SNE against an immediate. -/
def Obligations.ImmediateSkipsCompareTheWholeByte : Prop :=
  ∀ (x : Reg) (kk : Byte),
    decode (BitVec.ofNat 16 (0x3000 + x.val * 256 + kk.toNat)) = .instr (.seImm x kk) ∧
    decode (BitVec.ofNat 16 (0x4000 + x.val * 256 + kk.toNat)) = .instr (.sneImm x kk) ∧
    ∀ s : State,
      (∃ t, exec (.seImm x kk) s = .next t ∧ Frame [] [.pc] s t ∧
        t.pc = if (s.reg x).toNat = kk.toNat then s.pc + 4 else s.pc + 2) ∧
      (∃ t, exec (.sneImm x kk) s = .next t ∧ Frame [] [.pc] s t ∧
        t.pc = if (s.reg x).toNat = kk.toNat then s.pc + 2 else s.pc + 4)

/-- 40_control_flow.md R63, R64 (the decoding clauses: D2, D3, log entry 12): SE and SNE between registers. -/
def Obligations.RegisterSkipsCompareTheTwoRegisters : Prop :=
  ∀ x y : Reg,
    decode (BitVec.ofNat 16 (0x5000 + x.val * 256 + y.val * 16)) = .instr (.seReg x y) ∧
    decode (BitVec.ofNat 16 (0x9000 + x.val * 256 + y.val * 16)) = .instr (.sneReg x y) ∧
    ∀ s : State,
      (∃ t, exec (.seReg x y) s = .next t ∧ Frame [] [.pc] s t ∧
        t.pc = if (s.reg x).toNat = (s.reg y).toNat then s.pc + 4 else s.pc + 2) ∧
      (∃ t, exec (.sneReg x y) s = .next t ∧ Frame [] [.pc] s t ∧
        t.pc = if (s.reg x).toNat = (s.reg y).toNat then s.pc + 2 else s.pc + 4)

/-- 95_test_vectors.md S4, from 40_control_flow.md R58, R60: a RET in any state that still has the stack of a CALL
resumes at the instruction after the CALL and restores the stack pointer. -/
def Obligations.ReturnResumesAfterItsCall : Prop :=
  ∀ (s t t' : State) (nnn : Addr), s.sp.val < 16 → exec (.call nnn) s = .next t → t'.stack = t.stack → t'.sp = t.sp →
    ∃ u, exec .ret t' = .next u ∧ u.pc = s.pc + 2 ∧ u.sp = s.sp

/-- 95_test_vectors.md S7, from 40_control_flow.md R60, R66: with `d` entries on the stack, any `16 - d` calls in a row
succeed, whatever their targets, and the call after them overflows. -/
def Obligations.StackHoldsSixteenCalls : Prop :=
  ∀ (s : State) (targets : List Addr), s.halted = false → targets.length + s.sp.val = 16 →
    ∃ t, targets.foldlM (fun (u : State) nnn => match exec (.call nnn) u with
        | .next v => if v.halted = false then some v else none
        | .fault _ => none
        | .refused _ => none) s = some t ∧
      t.sp.val = 16 ∧ ∀ nnn, ∃ u, exec (.call nnn) t = .next u ∧ u.halted = true ∧ u.err = .stackOverflow ∧
        Frame [] [.errors] t u

/-! ## Display -/

/-- 42_display.md R85 (the dirty flag: D17; the decoding clause: D2, D3, log entry 12): CLS clears every pixel and sets dirty; VF is not written. -/
def Obligations.ClearDisplayBlanksEveryPixel : Prop :=
  decode 0x00E0#16 = .instr .cls ∧
    ∀ s : State, ∃ t, exec .cls s = .next t ∧ (∀ p, t.disp.pixel p = false) ∧ t.dirty = true ∧ t.pc = s.pc + 2 ∧
      Frame [] [.display, .pc] s t

/-- 42_display.md R86 to R90 (edges D7, bit order D8, height 0 D9, dirty D17; the decoding clause: D2, D3,
log entry 12): a completed DRW inverts exactly the pixels under a
placed 1 bit of the sprite, sets VF to 1 exactly if one of those was 1 before, and sets dirty, in both DRAW_EDGE
modes. -/
def Obligations.DrawInvertsThePlacedSpriteAndReportsCollision : Prop :=
  ∀ (x y : Reg) (n : Fin 16), decode (BitVec.ofNat 16 (0xD000 + x.val * 256 + y.val * 16 + n.val)) = .instr (.drw x y n) ∧
    ∀ s : State, (n.val = 0 ∨ s.i.toNat + n.val ≤ 0x1000) →
      ∃ t, exec (.drw x y n) s = .next t ∧
        (∀ p, t.disp.pixel p = true ↔ (s.disp.pixel p = true ↔ ¬ Covered s x y n.val p)) ∧
        ((∃ p, s.disp.pixel p = true ∧ Covered s x y n.val p) → t.reg 0xF = 1) ∧
        (¬ (∃ p, s.disp.pixel p = true ∧ Covered s x y n.val p) → t.reg 0xF = 0) ∧
        t.dirty = true ∧ t.pc = s.pc + 2 ∧ Frame [0xF] [.display, .pc] s t

/-- 42_display.md R86, 60_exceptions.md R108 (D10): a DRW whose sprite leaves memory raises OutOfBoundsAccess at 0x1000
and changes nothing else, in every state with I inside memory (as it always is, 10_state.md R17). -/
def Obligations.DrawBeyondMemoryRaisesOutOfBounds : Prop :=
  ∀ (s : State) (x y : Reg) (n : Fin 16), s.i.toNat ≤ 0xFFF → 0x1000 < s.i.toNat + n.val →
    ∃ t, exec (.drw x y n) s = .next t ∧ t.halted = true ∧ t.err = .outOfBoundsAccess ∧
      t.errAddr = 0x1000 ∧ Frame [] [.errors] s t

/-- 42_display.md R90: drawing the same sprite twice at the same place restores the buffer, and the second draw reports
a collision exactly if a placed 1 bit lay on a pixel that was 0 before the first. -/
def Obligations.DrawingTwiceRestoresTheDisplay : Prop :=
  ∀ (s t : State) (x y : Reg) (n : Fin 16), (n.val = 0 ∨ s.i.toNat + n.val ≤ 0x1000) → x ≠ 0xF → y ≠ 0xF →
    exec (.drw x y n) s = .next t →
    ∃ u, exec (.drw x y n) t = .next u ∧ (∀ p, u.disp.pixel p = s.disp.pixel p) ∧
      (u.reg 0xF = 1 ↔ ∃ p, s.disp.pixel p = false ∧ Covered s x y n.val p)

/-- 93_implementation_defined.md U2, 42_display.md R87: a sprite wholly inside the screen is drawn alike in both
DRAW_EDGE modes. -/
def Obligations.EdgeModesAgreeInsideTheScreen : Prop :=
  ∀ (s : State) (x y : Reg) (n : Fin 16) (e : DrawEdge), (s.reg x).toNat ≤ 56 → (s.reg y).toNat + n.val ≤ 32 →
    ∃ t, exec (.drw x y n) s = .next t ∧ exec (.drw x y n) (s.withDrawEdge e) = .next (t.withDrawEdge e)

/-! ## The step -/

/-- 44_cycle.md R94, R97: when the bytes at pc decode to an instruction, the step is that instruction's meaning and then
the tick of both timers, or no tick if it raised a fatal error. -/
def Obligations.StepRunsTheDecodedInstruction : Prop :=
  ∀ (s t : State) (i : Instr), s.halted = false → s.pc.toNat ≤ 0xFFE → decode s.wordAtPc = .instr i → i.wf = true →
    exec i s = .next t →
    step s = .next (if t.halted = true then t else
      { t with dt := if t.dt = 0 then 0 else t.dt - 1, st := if t.st = 0 then 0 else t.st - 1 })

/-- 44_cycle.md R94 and the model's placing of a word (log entry 11): from any state, the step after `withFetchWord`
runs the instruction that `decodeTableWord` reads. -/
def Obligations.PlacedWordIsTheOneTheNextStepRuns : Prop :=
  ∀ (s : State) (w : Nat) (i : Instr), s.mem.wf = true → decodeTableWord 16 w = some i →
    (s.withFetchWord 16 w).halted = false ∧ (s.withFetchWord 16 w).pc.toNat ≤ 0xFFE ∧
    decode (s.withFetchWord 16 w).wordAtPc = .instr i

/-- 60_exceptions.md R109: every instruction completes, without a fatal error, wherever it raises none of its own: CALL
with room on the stack, RET with an entry, DRW with its sprite inside memory, every other instruction always. -/
def Obligations.EveryInstructionCompletesWhereItCan : Prop :=
  ∀ (i : Instr) (s : State), CanComplete i s →
    ∃ t, exec i s = .next t ∧ t.halted = s.halted ∧ t.err = s.err ∧ t.pc = pcAfter i s

/-- 44_cycle.md R100 (R95 D11, R101 D10): every step answers a next state and has exactly one of the four outcomes; it
is never stuck. -/
def Obligations.EveryStepHasExactlyOneOfFourOutcomes : Prop :=
  ∀ s : State, ∃ t ev, cycle s = .next (t, ev) ∧ step s = .next t ∧
    ∃ k : StepKind, k.Describes s t ev ∧ ∀ k' : StepKind, k'.Describes s t ev → k' = k

/-- 60_exceptions.md R108, R109, R115 (D12, D13): exactly when a step of a running core is fatal, with the error and
address recorded, in every state with I inside memory; and the numbers of the codes. -/
def Obligations.FatalErrorsHaveExactlyTheirCauses : Prop :=
  (∀ s t : State, s.halted = false → s.i.toNat ≤ 0xFFF → step s = .next t →
    (t.halted = true ↔ 0xFFE < s.pc.toNat ∨ ∃ i, decode s.wordAtPc = .instr i ∧ ¬ CanComplete i s) ∧
    (0xFFE < s.pc.toNat → t.err = .outOfBoundsAccess ∧ t.errAddr = if s.pc = 0xFFF then 0x1000 else s.pc) ∧
    (s.pc.toNat ≤ 0xFFE → ∀ i, decode s.wordAtPc = .instr i → ¬ CanComplete i s →
      (∀ nnn, i = .call nnn → t.err = .stackOverflow ∧ t.errAddr = 0) ∧
      (i = .ret → t.err = .stackUnderflow ∧ t.errAddr = 0) ∧
      (∀ x y n, i = .drw x y n → t.err = .outOfBoundsAccess ∧ t.errAddr = 0x1000))) ∧
  ErrCode.none.bits = 0 ∧ ErrCode.stackOverflow.bits = 1 ∧ ErrCode.stackUnderflow.bits = 2 ∧
  ErrCode.outOfBoundsAccess.bits = 3

/-- 44_cycle.md R96, 20_memory.md R32 (D13): the fetch reads a big-endian word at any pc up to 0x0FFE, odd or even, and
is fatal above, with nothing executed. -/
def Obligations.FetchIsBigEndianAndBounded : Prop :=
  ∀ s : State,
    (s.pc.toNat ≤ 0xFFE → ∃ w, s.fetch = .ok w ∧
      w.toNat = (s.mem.read s.pc.toNat).toNat * 256 + (s.mem.read (s.pc.toNat + 1)).toNat) ∧
    (s.halted = false → 0xFFE < s.pc.toNat → ∃ t, step s = .next t ∧ t.halted = true ∧ t.err = .outOfBoundsAccess ∧
      (s.pc.toNat = 0xFFF → t.errAddr.toNat = 0x1000) ∧ (0x1000 ≤ s.pc.toNat → t.errAddr = s.pc) ∧
      Frame [] [.errors] s t)

/-- 43_unknown.md R91 (D18): a step on a word of the unknown space advances pc by 2, sets unk_seen, ticks, emits the
warning with the word, and changes nothing else. -/
def Obligations.UnknownWordWarnsAndAdvances : Prop :=
  ∀ s : State, s.halted = false → s.pc.toNat ≤ 0xFFE → decode s.wordAtPc = .unknown s.wordAtPc →
    ∃ t, cycle s = .next (t, { beep := decide (s.st.toNat = 1), warn := some s.wordAtPc }) ∧ t.unkSeen = true ∧
      t.pc = s.pc + 2 ∧ t.dt.toNat = s.dt.toNat - 1 ∧ t.st.toNat = s.st.toNat - 1 ∧
      Frame [] [.pc, .timers, .unkSeen] s t

/-- 10_state.md R25 (D18), 44_cycle.md R100: unk_seen is sticky, and a step sets it exactly when it emits the warning. -/
def Obligations.UnkSeenIsStickyAndFollowsTheWarning : Prop :=
  ∀ (s t : State) (ev : Events), cycle s = .next (t, ev) →
    (t.unkSeen = true ↔ s.unkSeen = true ∨ ∃ w, ev.warn = some w) ∧
    ∀ w, ev.warn = some w → w = s.wordAtPc ∧ decode w = .unknown w

/-- 10_state.md R15: the pc update table, for every step. -/
def Obligations.PcFollowsTheUpdateTable : Prop :=
  ∀ s t : State, step s = .next t →
    (s.halted = true → t.pc = s.pc) ∧ (t.halted = true → t.pc = s.pc) ∧
    (t.halted = false → (∀ i, decode s.wordAtPc = .instr i → t.pc = pcAfter i s) ∧
      (∀ u, decode s.wordAtPc = .unknown u → t.pc = s.pc + 2))

/-- 10_state.md R12: VF changes only in a step of a flagged operation or of an instruction whose destination is VF, and
a completed flagged operation leaves exactly the flag, 0 or 1, in VF, also where VF is its destination. -/
def Obligations.VfIsWrittenByFlaggedOperationsOnly : Prop :=
  ∀ s t : State, step s = .next t →
    (t.reg 0xF ≠ s.reg 0xF → s.halted = false ∧
      ∃ i, decode s.wordAtPc = .instr i ∧ (flagged i = true ∨ destination i = some 0xF)) ∧
    (s.halted = false → t.halted = false → ∀ i, decode s.wordAtPc = .instr i → flagged i = true →
      (FlagCondition i s → t.reg 0xF = 1) ∧ (¬ FlagCondition i s → t.reg 0xF = 0))

/-- 10_state.md R13: a general register other than VF changes only as the destination of the instruction at pc. -/
def Obligations.OnlyTheDestinationRegisterChanges : Prop :=
  ∀ (s t : State) (r : Reg), step s = .next t → r ≠ 0xF → t.reg r ≠ s.reg r →
    ∃ i, decode s.wordAtPc = .instr i ∧ destination i = some r

/-- 10_state.md R17: of all steps and host moves only LD I, nnn and reset write I. -/
def Obligations.OnlyLoadIndexWritesTheIndexRegister : Prop :=
  (∀ s t : State, step s = .next t → t.i ≠ s.i →
    ∃ nnn, decode s.wordAtPc = .instr (.ldI nnn) ∧ t.i.toNat = nnn.toNat) ∧
  ∀ (s : State) (m : HostMove), m ≠ .reset → (hostMove m s).i = s.i

/-- 10_state.md R18 (D23): only CALL pushes and only RET pops, one entry at a time; an entry changes only when a CALL
writes the next free one. -/
def Obligations.OnlyCallPushesAndOnlyReturnPops : Prop :=
  ∀ s t : State, step s = .next t →
    (s.sp.val < t.sp.val → t.sp.val = s.sp.val + 1 ∧ ∃ nnn, decode s.wordAtPc = .instr (.call nnn)) ∧
    (t.sp.val < s.sp.val → t.sp.val + 1 = s.sp.val ∧ decode s.wordAtPc = .instr .ret) ∧
    ∀ k : Fin 16, t.stack[k] ≠ s.stack[k] →
      k.val = s.sp.val ∧ t.stack[k] = s.pc + 2 ∧ ∃ nnn, decode s.wordAtPc = .instr (.call nnn)

/-- 42_display.md R84 (dirty set by every completion: D17): CLS and DRW are the only instructions that change the display, each sets dirty whenever it
completes and completes with pc + 2; of the host's moves only reset changes a pixel and only the clear (or reset) the
dirty flag. -/
def Obligations.OnlyClearAndDrawChangeTheDisplay : Prop :=
  (∀ s t : State, step s = .next t →
    (((∃ p, t.disp.pixel p ≠ s.disp.pixel p) ∨ t.dirty ≠ s.dirty) →
      decode s.wordAtPc = .instr .cls ∨ ∃ x y n, decode s.wordAtPc = .instr (.drw x y n)) ∧
    (s.halted = false → t.halted = false →
      (decode s.wordAtPc = .instr .cls ∨ ∃ x y n, decode s.wordAtPc = .instr (.drw x y n)) →
      t.dirty = true ∧ t.pc = s.pc + 2)) ∧
  ∀ (s : State) (m : HostMove), m ≠ .reset → (∀ p, (hostMove m s).disp.pixel p = s.disp.pixel p) ∧
    (m ≠ .clearDirty → (hostMove m s).dirty = s.dirty)

/-- 20_memory.md R31: memory is cleared by reset, written by the loader one byte at a time, and by no step and no other
host move: a read returns the byte last written, or 0x00. -/
def Obligations.OnlyTheLoaderAndResetWriteMemory : Prop :=
  (∀ s t : State, step s = .next t → ∀ a, t.mem.read a = s.mem.read a) ∧
  ∀ (s : State) (m : HostMove), s.mem.wf = true → ∀ a,
    (hostMove m s).mem.read a =
      match m with
      | .reset => 0
      | .load addr b => if a = addr.toNat then b else s.mem.read a
      | .writeDT _ | .writeST _ | .clearDirty | .presentRnd _ => s.mem.read a

/-- 10_state.md R21, 44_cycle.md R98, R104 (no tick in a fatal step: D10, D21; reset to 0: D15, log entry 10; the
host's timer ports: D16): each timer counts down by one in every completed step, floor 0, and otherwise only the host or
reset writes it; no instruction reads or writes either; the beep event is ST's transition from 1 to 0. -/
def Obligations.TimersCountCompletedStepsAndNoInstructionTouchesThem : Prop :=
  (∀ (s t : State) (ev : Events), cycle s = .next (t, ev) →
    (t.halted = false → t.dt.toNat = s.dt.toNat - 1 ∧ t.st.toNat = s.st.toNat - 1) ∧
    (t.halted = true → t.dt = s.dt ∧ t.st = s.st) ∧
    (ev.beep = true ↔ s.st.toNat = 1 ∧ t.st.toNat = 0)) ∧
  (∀ (i : Instr) (s : State) (a b : Byte), ∃ t, exec i s = .next t ∧ t.dt = s.dt ∧ t.st = s.st ∧
    exec i { s with dt := a, st := b } = .next { t with dt := a, st := b }) ∧
  ∀ (s : State) (m : HostMove),
    (hostMove m s).dt = (match m with
      | .writeDT b => b
      | .reset => 0
      | .load _ _ | .writeST _ | .clearDirty | .presentRnd _ => s.dt) ∧
    (hostMove m s).st = (match m with
      | .writeST b => b
      | .reset => 0
      | .load _ _ | .writeDT _ | .clearDirty | .presentRnd _ => s.st)

/-- 44_cycle.md R99: a step beeps exactly when its tick takes ST from 1 to 0, a host move never does, and a sound timer
loaded with `k >= 1` beeps at the end of the k-th completed step after the load and in no other step of the run. -/
def Obligations.BeepComesAtTheEndOfTheKthStep : Prop :=
  (∀ s t : State, step s = .next t → (s.events.beep = true ↔ s.st.toNat = 1 ∧ t.st.toNat = 0)) ∧
  (∀ (s t : State) (m : HostMove) (ev : Events), (Move.host m).apply s = .next (t, ev) → ev.beep = false) ∧
  ∀ (k len : Nat) (run : Nat → State), 1 ≤ k → (run 0).st.toNat = k →
    (∀ j < len, step (run j) = .next (run (j + 1)) ∧ (run (j + 1)).halted = false) →
    ∀ j < len, (run j).events.beep = true ↔ j + 1 = k

/-- 10_state.md R21, R22, R25, 43_unknown.md R92: nothing the program does depends on the timers, the dirty flag or
unk_seen: two states that differ in nothing else step to states that differ in nothing else. -/
def Obligations.TimersAndFlagsForTheHostNeverInfluenceTheProgram : Prop :=
  ∀ (s : State) (dt st : Byte) (dirty unk : Bool), ∃ t u, step s = .next t ∧
    step { s with dt := dt, st := st, dirty := dirty, unkSeen := unk } = .next u ∧
    u = { t with dt := u.dt, st := u.st, dirty := u.dirty, unkSeen := u.unkSeen }

/-- 00_scope.md R6, 41_data_alu.md R82 (D19; log entry 2): no step changes the parameters, and only a step that executes RND samples the
random source, once. -/
def Obligations.OnlyRandomSamplesTheSourceAndNothingChangesTheParameters : Prop :=
  ∀ s t : State, step s = .next t → t.cfg = s.cfg ∧
    ((∃ x kk, s.halted = false ∧ s.pc.toNat ≤ 0xFFE ∧ decode s.wordAtPc = .instr (.rnd x kk)) →
      (∀ r rest, s.rndIn = r :: rest → t.rndIn = rest ∧ t.rndDraws = s.rndDraws) ∧
      (s.rndIn = [] → t.rndIn = [] ∧ t.rndDraws = s.rndDraws + 1)) ∧
    ((¬ ∃ x kk, s.halted = false ∧ s.pc.toNat ≤ 0xFFE ∧ decode s.wordAtPc = .instr (.rnd x kk)) →
      t.rndIn = s.rndIn ∧ t.rndDraws = s.rndDraws)

/-! ## Invariant, reset, host -/

/-- 10_state.md R28: the invariant is kept by every step and every host move, from every state that has it. -/
def Obligations.EveryTransitionKeepsTheInvariant : Prop :=
  ∀ (s t : State) (m : Move) (ev : Events), s.Inv → m.apply s = .next (t, ev) → t.Inv

/-- 10_state.md R28: the reset state has the invariant (every value but memory's: D15). -/
def Obligations.ResetHasTheInvariant : Prop := State.reset.Inv

/-- 10_state.md R27, 70_reset_and_hazards.md R122, R123 (all but memory: D15): a reset, from any state, leaves every
piece of state at its reset value, and does not touch the parameters. -/
def Obligations.ResetPutsEveryPieceOfStateToItsValue : Prop :=
  (∀ s : State, (∀ a, (hostMove .reset s).mem.read a = 0) ∧ (∀ r, (hostMove .reset s).reg r = 0) ∧
    (hostMove .reset s).i = 0 ∧ (hostMove .reset s).pc = 0x0200 ∧ (hostMove .reset s).sp.val = 0 ∧
    (∀ k : Fin 16, (hostMove .reset s).stack[k] = 0) ∧ (∀ p, (hostMove .reset s).disp.pixel p = false) ∧
    (hostMove .reset s).dirty = true ∧ (hostMove .reset s).dt = 0 ∧ (hostMove .reset s).st = 0 ∧
    (hostMove .reset s).halted = false ∧ (hostMove .reset s).err.bits = 0 ∧ (hostMove .reset s).errAddr = 0 ∧
    (hostMove .reset s).unkSeen = false ∧ (hostMove .reset s).cfg = s.cfg) ∧
  hostMove .reset State.reset = State.reset ∧ State.reset.cfg = { drawEdge := .wrap, shiftSrc := .vy }

/-- 60_exceptions.md R113, 70_reset_and_hazards.md R124, 10_state.md R29: a halted core stays halted with the same error
through every transition but reset, and no host move but reset writes V, I, pc, sp, the stack, the display or a status
bit other than dirty. -/
def Obligations.OnlyResetLeavesTheHaltedStateAndWritesRegistersFromOutside : Prop :=
  (∀ (s t : State) (m : Move) (ev : Events), m ≠ .host .reset → s.halted = true → m.apply s = .next (t, ev) →
    t.halted = true ∧ t.err = s.err ∧ t.errAddr = s.errAddr ∧ ev = Events.none) ∧
  ∀ (s : State) (m : HostMove), m ≠ .reset →
    hostMove m s = { s with
      mem := (hostMove m s).mem, dt := (hostMove m s).dt, st := (hostMove m s).st, dirty := (hostMove m s).dirty
      rndIn := (hostMove m s).rndIn }

/-- 44_cycle.md R103: a loader write stores one byte and changes nothing else, and a program that fits is loaded by its
moves to 0x200 and up, all other memory and all other state as before. -/
def Obligations.LoaderStoresTheProgramAtItsBase : Prop :=
  (∀ (s : State) (addr : Addr) (b : Byte), s.mem.wf = true →
    (∀ a, (hostMove (.load addr b) s).mem.read a = if a = addr.toNat then b else s.mem.read a) ∧
    { hostMove (.load addr b) s with mem := s.mem } = s) ∧
  ∀ (s : State) (p : Program), s.mem.wf = true → p.fits = true →
    (∀ k (h : k < p.length), (s.loadProgram p).mem.read (0x200 + k) = p[k]) ∧
    (∀ a, a < 0x200 ∨ 0x200 + p.length ≤ a → (s.loadProgram p).mem.read a = s.mem.read a) ∧
    { s.loadProgram p with mem := s.mem } = s

/-- 44_cycle.md R105: the renderer reads any pixel and clears dirty; no port writes the display. -/
def Obligations.RendererReadsPixelsAndClearsDirty : Prop :=
  (∀ (s : State) (p : Pixel), s.displayPort (BitVec.ofNat 6 p.1.val) (BitVec.ofNat 5 p.2.val) = s.disp.pixel p) ∧
  (∀ s : State, (hostMove .clearDirty s).dirty = false ∧ { hostMove .clearDirty s with dirty := s.dirty } = s) ∧
  ∀ (s : State) (m : HostMove), m ≠ .reset → (hostMove m s).disp = s.disp
end

