-- ==== Sys2Proof/Laws/Encoding.lean ====
section
/-! SUPPORT. The fields of the words the encoder builds, each format once, and the words as sums of their parts
(spec 30_encoding.md section 6). -/

namespace Sys2Proof

@[simp] theorem Nibble.index_field (r : Fin 16) : Nibble.index (Reg.field r) = r := by
  apply Fin.ext
  simp [Nibble.index, Reg.field]

@[simp] theorem Reg.field_index (b : Nibble) : Reg.field (Nibble.index b) = b := by
  apply BitVec.eq_of_toNat_eq
  simp [Nibble.index, Reg.field]

@[simp] theorem Reg.field_toNat (r : Fin 16) : (Reg.field r).toNat = r.val := by
  simp [Reg.field]

@[simp] theorem highByte_composeWord (hi lo : Byte) : highByte (composeWord hi lo) = hi := by
  ext i hi
  simp [highByte, composeWord]
  grind

@[simp] theorem lowByte_composeWord (hi lo : Byte) : lowByte (composeWord hi lo) = lo := by
  ext i hi
  simp [lowByte, composeWord]
  grind

@[simp] theorem composeWord_bytes (w : Word) : composeWord (highByte w) (lowByte w) = w := by
  ext i hi
  simp [composeWord, highByte, lowByte]
  grind

/-! ## Fields of the formats -/

@[simp] theorem formNNN_op (op : Nibble) (nnn : Addr) : (fields (formNNN op nnn)).op = op := by
  ext i hi
  simp [fields, formNNN]
  grind

@[simp] theorem formNNN_nnn (op : Nibble) (nnn : Addr) : (fields (formNNN op nnn)).nnn = nnn := by
  ext i hi
  simp [fields, formNNN]
  grind

@[simp] theorem formXKK_op (op : Nibble) (x : Reg) (kk : Byte) : (fields (formXKK op x kk)).op = op := by
  ext i hi
  simp [fields, formXKK]
  grind

@[simp] theorem formXKK_x (op : Nibble) (x : Reg) (kk : Byte) : (fields (formXKK op x kk)).x = x := by
  have : (formXKK op x kk).extractLsb' 8 4 = Reg.field x := by
    ext i hi
    simp [formXKK]
    grind
  simp [fields, this]

@[simp] theorem formXKK_kk (op : Nibble) (x : Reg) (kk : Byte) : (fields (formXKK op x kk)).kk = kk := by
  ext i hi
  simp [fields, formXKK]
  grind

@[simp] theorem formXYN_op (op : Nibble) (x y : Reg) (n : Nibble) : (fields (formXYN op x y n)).op = op := by
  ext i hi
  simp [fields, formXYN]
  grind

@[simp] theorem formXYN_x (op : Nibble) (x y : Reg) (n : Nibble) : (fields (formXYN op x y n)).x = x := by
  have : (formXYN op x y n).extractLsb' 8 4 = Reg.field x := by
    ext i hi
    simp [formXYN]
    grind
  simp [fields, this]

@[simp] theorem formXYN_y (op : Nibble) (x y : Reg) (n : Nibble) : (fields (formXYN op x y n)).y = y := by
  have : (formXYN op x y n).extractLsb' 4 4 = Reg.field y := by
    ext i hi
    simp [formXYN]
    grind
  simp [fields, this]

@[simp] theorem formXYN_n (op : Nibble) (x y : Reg) (n : Nibble) : (fields (formXYN op x y n)).n = n := by
  ext i hi
  simp [fields, formXYN]
  grind

/-! ## The formats as sums -/

theorem formNNN_toNat (op : Nibble) (nnn : Addr) : (formNNN op nnn).toNat = op.toNat * 4096 + nnn.toNat := by
  have := nnn.isLt
  simp only [formNNN, BitVec.toNat_append, Nat.shiftLeft_eq]
  rw [Nat.mul_comm, ← Nat.two_pow_add_eq_or_of_lt this]

theorem formXKK_toNat (op : Nibble) (x : Reg) (kk : Byte) :
    (formXKK op x kk).toNat = op.toNat * 4096 + x.val * 256 + kk.toNat := by
  have h1 := kk.isLt
  have h2 := (Reg.field x).isLt
  simp only [formXKK, BitVec.toNat_append, Nat.shiftLeft_eq, Reg.field_toNat] at h2 ⊢
  rw [Nat.mul_comm _ (2 ^ 8), ← Nat.two_pow_add_eq_or_of_lt h1, Nat.mul_comm _ (2 ^ 4),
    ← Nat.two_pow_add_eq_or_of_lt h2]
  omega

theorem formXYN_toNat (op : Nibble) (x y : Reg) (n : Nibble) :
    (formXYN op x y n).toNat = op.toNat * 4096 + x.val * 256 + y.val * 16 + n.toNat := by
  have h1 := n.isLt
  have h2 := (Reg.field x).isLt
  have h3 := (Reg.field y).isLt
  simp only [formXYN, BitVec.toNat_append, Nat.shiftLeft_eq, Reg.field_toNat] at h2 h3 ⊢
  rw [Nat.mul_comm _ (2 ^ 4), ← Nat.two_pow_add_eq_or_of_lt h1, Nat.mul_comm _ (2 ^ 4),
    ← Nat.two_pow_add_eq_or_of_lt h3, Nat.mul_comm _ (2 ^ 4), ← Nat.two_pow_add_eq_or_of_lt h2]
  omega

end Sys2Proof
end

