-- ==== Sys2Proof/Laws/Memory.lean ====
section
/-! SUPPORT. Memory: read after write, and that every memory operation keeps the canonical form. -/

namespace Sys2Proof.Machine

@[simp] theorem Memory.read_nil (a : Nat) : Memory.read [] a = Memory.unlisted := rfl

theorem Memory.read_cons (k : Nat) (c : Byte) (m : Memory) (a : Nat) :
    Memory.read ((k, c) :: m) a = if a = k then c else Memory.read m a := rfl

theorem Memory.wfFrom_cons (lo k : Nat) (c : Byte) (m : Memory) :
    Memory.wfFrom lo ((k, c) :: m) = true ↔
      lo ≤ k ∧ k < memSize ∧ c ≠ Memory.unlisted ∧ Memory.wfFrom (k + 1) m = true := by
  simp [Memory.wfFrom, and_assoc]

theorem Memory.wfFrom_mono {lo lo' : Nat} (h : lo' ≤ lo) :
    ∀ {m : Memory}, Memory.wfFrom lo m = true → Memory.wfFrom lo' m = true
  | [], _ => rfl
  | (k, c) :: m, hm => by
    rw [Memory.wfFrom_cons] at hm ⊢
    exact ⟨by omega, hm.2⟩

/-- Below the first listed address a canonical memory reads as unlisted. -/
theorem Memory.read_below : ∀ {m : Memory} {lo a : Nat}, Memory.wfFrom lo m = true → a < lo →
    Memory.read m a = Memory.unlisted
  | [], _, _, _, _ => rfl
  | (k, c) :: m, lo, a, hm, ha => by
    rw [Memory.wfFrom_cons] at hm
    rw [Memory.read_cons, if_neg (by omega), Memory.read_below hm.2.2.2 (by omega)]

/-- Read after write, in a canonical memory: the byte written at its address, every other byte as before. -/
theorem Memory.read_writeFrom (a : Nat) (b : Byte) (k : Nat) :
    ∀ {m : Memory} {lo : Nat}, Memory.wfFrom lo m = true →
      Memory.read (Memory.write m a b) k = if k = a then b else Memory.read m k
  | [], _, _ => by
    by_cases hb : b = Memory.unlisted <;> simp [Memory.write, hb, Memory.read_cons]
  | (j, c) :: m, lo, hm => by
    rw [Memory.wfFrom_cons] at hm
    have below : a ≤ j → Memory.read m a = Memory.unlisted := fun h =>
      Memory.read_below hm.2.2.2 (by omega)
    have ih := Memory.read_writeFrom a b k hm.2.2.2
    simp only [Memory.write]
    split
    · split
      · by_cases hk : k = a
        · subst hk; simp only [if_true, Memory.read_cons, if_neg (show k ≠ j by omega)]
          rw [below (by omega)]; exact ‹b = _›.symm
        · simp [hk]
      · simp [Memory.read_cons]
    · split
      · subst_vars
        split
        · by_cases hk : k = j
          · subst hk; simp only [if_true]; rw [below (by omega)]; exact ‹b = _›.symm
          · simp [Memory.read_cons, hk]
        · by_cases hk : k = j <;> simp [Memory.read_cons, hk]
      · by_cases hk : k = j
        · subst hk; simp [Memory.read_cons, show k ≠ a by omega]
        · simp [Memory.read_cons, hk, ih]

theorem Memory.read_write {m : Memory} (hm : m.wf = true) (a : Nat) (b : Byte) (k : Nat) :
    (m.write a b).read k = if k = a then b else m.read k :=
  Memory.read_writeFrom a b k hm

theorem Memory.writeFrom_wf {a : Nat} (b : Byte) (ha : a < memSize) :
    ∀ {m : Memory} {lo : Nat}, lo ≤ a → Memory.wfFrom lo m = true → Memory.wfFrom lo (Memory.write m a b) = true
  | [], lo, hlo, _ => by
    by_cases hb : b = Memory.unlisted
    · simp [Memory.write, hb, Memory.wfFrom]
    · rw [Memory.write, if_neg hb, Memory.wfFrom_cons]; exact ⟨hlo, ha, hb, rfl⟩
  | (j, c) :: m, lo, hlo, hm => by
    have hm' := (Memory.wfFrom_cons lo j c m).1 hm
    simp only [Memory.write]
    split
    · split
      · exact hm
      · rw [Memory.wfFrom_cons, Memory.wfFrom_cons]; exact ⟨hlo, ha, ‹_›, by omega, hm'.2⟩
    · split
      · split
        · exact Memory.wfFrom_mono (by omega) hm'.2.2.2
        · rw [Memory.wfFrom_cons]; exact ⟨hlo, ha, ‹_›, by subst_vars; exact hm'.2.2.2⟩
      · rw [Memory.wfFrom_cons]
        exact ⟨hm'.1, hm'.2.1, hm'.2.2.1, Memory.writeFrom_wf b ha (by omega) hm'.2.2.2⟩

/-- A write inside memory keeps the canonical form. -/
theorem Memory.write_wf {m : Memory} (hm : m.wf = true) {a : Nat} (ha : a < memSize) (b : Byte) :
    (m.write a b).wf = true :=
  Memory.writeFrom_wf b ha (Nat.zero_le a) hm

/-- Two canonical memories that read alike are equal data. -/
theorem Memory.eq_of_readFrom : ∀ {m m' : Memory} {lo : Nat}, Memory.wfFrom lo m = true → Memory.wfFrom lo m' = true →
    (∀ a, Memory.read m a = Memory.read m' a) → m = m'
  | [], [], _, _, _, _ => rfl
  | [], (k, c) :: m', lo, _, h', hr => by
    rw [Memory.wfFrom_cons] at h'
    exact absurd (by simpa [Memory.read_cons] using (hr k).symm) h'.2.2.1
  | (k, c) :: m, [], lo, h, _, hr => by
    rw [Memory.wfFrom_cons] at h
    exact absurd (by simpa [Memory.read_cons] using hr k) h.2.2.1
  | (k, c) :: m, (k', c') :: m', lo, h, h', hr => by
    rw [Memory.wfFrom_cons] at h h'
    have hk : k = k' := by
      rcases Nat.lt_trichotomy k k' with hlt | heq | hgt
      · have := hr k
        rw [Memory.read_cons, if_pos rfl, Memory.read_cons, if_neg (by omega),
          Memory.read_below h'.2.2.2 (by omega)] at this
        exact absurd this h.2.2.1
      · exact heq
      · have := hr k'
        rw [Memory.read_cons, if_neg (by omega), Memory.read_below h.2.2.2 (by omega), Memory.read_cons,
          if_pos rfl] at this
        exact absurd this.symm h'.2.2.1
    subst hk
    have hc : c = c' := by simpa [Memory.read_cons] using hr k
    subst hc
    have := Memory.eq_of_readFrom h.2.2.2 h'.2.2.2 fun a => by
      by_cases ha : a = k
      · subst ha
        rw [Memory.read_below h.2.2.2 (by omega), Memory.read_below h'.2.2.2 (by omega)]
      · simpa [Memory.read_cons, ha] using hr a
    rw [this]

/-- Outside memory's 4096 addresses nothing is listed. -/
theorem Memory.read_outsideFrom : ∀ {m : Memory} {lo a : Nat}, Memory.wfFrom lo m = true → memSize ≤ a →
    Memory.read m a = Memory.unlisted
  | [], _, _, _, _ => rfl
  | (k, c) :: m, lo, a, hm, ha => by
    rw [Memory.wfFrom_cons] at hm
    rw [Memory.read_cons, if_neg (by omega), Memory.read_outsideFrom hm.2.2.2 ha]

/-- The loader port keeps the canonical form: its address is 12 bits (44_cycle.md R103). -/
theorem State.loadByte_wf {s : State} (h : s.mem.wf = true) (a : Addr) (b : Byte) :
    (s.mem.write a.toNat b).wf = true :=
  Memory.write_wf h (by have := a.isLt; simp [memSize]; omega) b

end Sys2Proof.Machine
end

