-- ==== Sys2Proof/Laws/State.lean ====
section
/-! SUPPORT. One lemma per field per update of State, true by rfl, so that no later proof unfolds a record update. -/

namespace Sys2Proof.Machine

/-! ## setReg -/

@[simp] theorem State.setReg_mem (s : State) (r : Reg) (b : Byte) : (s.setReg r b).mem = s.mem := rfl
@[simp] theorem State.setReg_v (s : State) (r : Reg) (b : Byte) : (s.setReg r b).v = s.v.set r b := rfl
@[simp] theorem State.setReg_i (s : State) (r : Reg) (b : Byte) : (s.setReg r b).i = s.i := rfl
@[simp] theorem State.setReg_pc (s : State) (r : Reg) (b : Byte) : (s.setReg r b).pc = s.pc := rfl
@[simp] theorem State.setReg_stack (s : State) (r : Reg) (b : Byte) : (s.setReg r b).stack = s.stack := rfl
@[simp] theorem State.setReg_sp (s : State) (r : Reg) (b : Byte) : (s.setReg r b).sp = s.sp := rfl
@[simp] theorem State.setReg_disp (s : State) (r : Reg) (b : Byte) : (s.setReg r b).disp = s.disp := rfl
@[simp] theorem State.setReg_dt (s : State) (r : Reg) (b : Byte) : (s.setReg r b).dt = s.dt := rfl
@[simp] theorem State.setReg_st (s : State) (r : Reg) (b : Byte) : (s.setReg r b).st = s.st := rfl
@[simp] theorem State.setReg_dirty (s : State) (r : Reg) (b : Byte) : (s.setReg r b).dirty = s.dirty := rfl
@[simp] theorem State.setReg_halted (s : State) (r : Reg) (b : Byte) : (s.setReg r b).halted = s.halted := rfl
@[simp] theorem State.setReg_err (s : State) (r : Reg) (b : Byte) : (s.setReg r b).err = s.err := rfl
@[simp] theorem State.setReg_errAddr (s : State) (r : Reg) (b : Byte) : (s.setReg r b).errAddr = s.errAddr := rfl
@[simp] theorem State.setReg_unkSeen (s : State) (r : Reg) (b : Byte) : (s.setReg r b).unkSeen = s.unkSeen := rfl
@[simp] theorem State.setReg_rndIn (s : State) (r : Reg) (b : Byte) : (s.setReg r b).rndIn = s.rndIn := rfl
@[simp] theorem State.setReg_rndDraws (s : State) (r : Reg) (b : Byte) : (s.setReg r b).rndDraws = s.rndDraws := rfl
@[simp] theorem State.setReg_cfg (s : State) (r : Reg) (b : Byte) : (s.setReg r b).cfg = s.cfg := rfl

/-! ## setIndex -/

@[simp] theorem State.setIndex_mem (s : State) (w : Word) : (s.setIndex w).mem = s.mem := rfl
@[simp] theorem State.setIndex_v (s : State) (w : Word) : (s.setIndex w).v = s.v := rfl
@[simp] theorem State.setIndex_i (s : State) (w : Word) : (s.setIndex w).i = w := rfl
@[simp] theorem State.setIndex_pc (s : State) (w : Word) : (s.setIndex w).pc = s.pc := rfl
@[simp] theorem State.setIndex_stack (s : State) (w : Word) : (s.setIndex w).stack = s.stack := rfl
@[simp] theorem State.setIndex_sp (s : State) (w : Word) : (s.setIndex w).sp = s.sp := rfl
@[simp] theorem State.setIndex_disp (s : State) (w : Word) : (s.setIndex w).disp = s.disp := rfl
@[simp] theorem State.setIndex_dt (s : State) (w : Word) : (s.setIndex w).dt = s.dt := rfl
@[simp] theorem State.setIndex_st (s : State) (w : Word) : (s.setIndex w).st = s.st := rfl
@[simp] theorem State.setIndex_dirty (s : State) (w : Word) : (s.setIndex w).dirty = s.dirty := rfl
@[simp] theorem State.setIndex_halted (s : State) (w : Word) : (s.setIndex w).halted = s.halted := rfl
@[simp] theorem State.setIndex_err (s : State) (w : Word) : (s.setIndex w).err = s.err := rfl
@[simp] theorem State.setIndex_errAddr (s : State) (w : Word) : (s.setIndex w).errAddr = s.errAddr := rfl
@[simp] theorem State.setIndex_unkSeen (s : State) (w : Word) : (s.setIndex w).unkSeen = s.unkSeen := rfl
@[simp] theorem State.setIndex_rndIn (s : State) (w : Word) : (s.setIndex w).rndIn = s.rndIn := rfl
@[simp] theorem State.setIndex_rndDraws (s : State) (w : Word) : (s.setIndex w).rndDraws = s.rndDraws := rfl
@[simp] theorem State.setIndex_cfg (s : State) (w : Word) : (s.setIndex w).cfg = s.cfg := rfl
@[simp] theorem State.setIndex_reg (s : State) (w : Word) (q : Reg) : (s.setIndex w).reg q = s.reg q := rfl

/-! ## setPc -/

@[simp] theorem State.setPc_mem (s : State) (w : Word) : (s.setPc w).mem = s.mem := rfl
@[simp] theorem State.setPc_v (s : State) (w : Word) : (s.setPc w).v = s.v := rfl
@[simp] theorem State.setPc_i (s : State) (w : Word) : (s.setPc w).i = s.i := rfl
@[simp] theorem State.setPc_pc (s : State) (w : Word) : (s.setPc w).pc = w := rfl
@[simp] theorem State.setPc_stack (s : State) (w : Word) : (s.setPc w).stack = s.stack := rfl
@[simp] theorem State.setPc_sp (s : State) (w : Word) : (s.setPc w).sp = s.sp := rfl
@[simp] theorem State.setPc_disp (s : State) (w : Word) : (s.setPc w).disp = s.disp := rfl
@[simp] theorem State.setPc_dt (s : State) (w : Word) : (s.setPc w).dt = s.dt := rfl
@[simp] theorem State.setPc_st (s : State) (w : Word) : (s.setPc w).st = s.st := rfl
@[simp] theorem State.setPc_dirty (s : State) (w : Word) : (s.setPc w).dirty = s.dirty := rfl
@[simp] theorem State.setPc_halted (s : State) (w : Word) : (s.setPc w).halted = s.halted := rfl
@[simp] theorem State.setPc_err (s : State) (w : Word) : (s.setPc w).err = s.err := rfl
@[simp] theorem State.setPc_errAddr (s : State) (w : Word) : (s.setPc w).errAddr = s.errAddr := rfl
@[simp] theorem State.setPc_unkSeen (s : State) (w : Word) : (s.setPc w).unkSeen = s.unkSeen := rfl
@[simp] theorem State.setPc_rndIn (s : State) (w : Word) : (s.setPc w).rndIn = s.rndIn := rfl
@[simp] theorem State.setPc_rndDraws (s : State) (w : Word) : (s.setPc w).rndDraws = s.rndDraws := rfl
@[simp] theorem State.setPc_cfg (s : State) (w : Word) : (s.setPc w).cfg = s.cfg := rfl
@[simp] theorem State.setPc_reg (s : State) (w : Word) (q : Reg) : (s.setPc w).reg q = s.reg q := rfl

/-! ## advance -/

@[simp] theorem State.advance_mem (s : State) : (s.advance).mem = s.mem := rfl
@[simp] theorem State.advance_v (s : State) : (s.advance).v = s.v := rfl
@[simp] theorem State.advance_i (s : State) : (s.advance).i = s.i := rfl
@[simp] theorem State.advance_pc (s : State) : (s.advance).pc = s.pc + 2 := rfl
@[simp] theorem State.advance_stack (s : State) : (s.advance).stack = s.stack := rfl
@[simp] theorem State.advance_sp (s : State) : (s.advance).sp = s.sp := rfl
@[simp] theorem State.advance_disp (s : State) : (s.advance).disp = s.disp := rfl
@[simp] theorem State.advance_dt (s : State) : (s.advance).dt = s.dt := rfl
@[simp] theorem State.advance_st (s : State) : (s.advance).st = s.st := rfl
@[simp] theorem State.advance_dirty (s : State) : (s.advance).dirty = s.dirty := rfl
@[simp] theorem State.advance_halted (s : State) : (s.advance).halted = s.halted := rfl
@[simp] theorem State.advance_err (s : State) : (s.advance).err = s.err := rfl
@[simp] theorem State.advance_errAddr (s : State) : (s.advance).errAddr = s.errAddr := rfl
@[simp] theorem State.advance_unkSeen (s : State) : (s.advance).unkSeen = s.unkSeen := rfl
@[simp] theorem State.advance_rndIn (s : State) : (s.advance).rndIn = s.rndIn := rfl
@[simp] theorem State.advance_rndDraws (s : State) : (s.advance).rndDraws = s.rndDraws := rfl
@[simp] theorem State.advance_cfg (s : State) : (s.advance).cfg = s.cfg := rfl
@[simp] theorem State.advance_reg (s : State) (q : Reg) : (s.advance).reg q = s.reg q := rfl

/-! ## skipIf -/

@[simp] theorem State.skipIf_mem (s : State) (c : Bool) : (s.skipIf c).mem = s.mem := rfl
@[simp] theorem State.skipIf_v (s : State) (c : Bool) : (s.skipIf c).v = s.v := rfl
@[simp] theorem State.skipIf_i (s : State) (c : Bool) : (s.skipIf c).i = s.i := rfl
@[simp] theorem State.skipIf_pc (s : State) (c : Bool) : (s.skipIf c).pc = if c then s.pc + 4 else s.pc + 2 := rfl
@[simp] theorem State.skipIf_stack (s : State) (c : Bool) : (s.skipIf c).stack = s.stack := rfl
@[simp] theorem State.skipIf_sp (s : State) (c : Bool) : (s.skipIf c).sp = s.sp := rfl
@[simp] theorem State.skipIf_disp (s : State) (c : Bool) : (s.skipIf c).disp = s.disp := rfl
@[simp] theorem State.skipIf_dt (s : State) (c : Bool) : (s.skipIf c).dt = s.dt := rfl
@[simp] theorem State.skipIf_st (s : State) (c : Bool) : (s.skipIf c).st = s.st := rfl
@[simp] theorem State.skipIf_dirty (s : State) (c : Bool) : (s.skipIf c).dirty = s.dirty := rfl
@[simp] theorem State.skipIf_halted (s : State) (c : Bool) : (s.skipIf c).halted = s.halted := rfl
@[simp] theorem State.skipIf_err (s : State) (c : Bool) : (s.skipIf c).err = s.err := rfl
@[simp] theorem State.skipIf_errAddr (s : State) (c : Bool) : (s.skipIf c).errAddr = s.errAddr := rfl
@[simp] theorem State.skipIf_unkSeen (s : State) (c : Bool) : (s.skipIf c).unkSeen = s.unkSeen := rfl
@[simp] theorem State.skipIf_rndIn (s : State) (c : Bool) : (s.skipIf c).rndIn = s.rndIn := rfl
@[simp] theorem State.skipIf_rndDraws (s : State) (c : Bool) : (s.skipIf c).rndDraws = s.rndDraws := rfl
@[simp] theorem State.skipIf_cfg (s : State) (c : Bool) : (s.skipIf c).cfg = s.cfg := rfl
@[simp] theorem State.skipIf_reg (s : State) (c : Bool) (q : Reg) : (s.skipIf c).reg q = s.reg q := rfl

/-! ## markUnknown -/

@[simp] theorem State.markUnknown_mem (s : State) : (s.markUnknown).mem = s.mem := rfl
@[simp] theorem State.markUnknown_v (s : State) : (s.markUnknown).v = s.v := rfl
@[simp] theorem State.markUnknown_i (s : State) : (s.markUnknown).i = s.i := rfl
@[simp] theorem State.markUnknown_pc (s : State) : (s.markUnknown).pc = s.pc := rfl
@[simp] theorem State.markUnknown_stack (s : State) : (s.markUnknown).stack = s.stack := rfl
@[simp] theorem State.markUnknown_sp (s : State) : (s.markUnknown).sp = s.sp := rfl
@[simp] theorem State.markUnknown_disp (s : State) : (s.markUnknown).disp = s.disp := rfl
@[simp] theorem State.markUnknown_dt (s : State) : (s.markUnknown).dt = s.dt := rfl
@[simp] theorem State.markUnknown_st (s : State) : (s.markUnknown).st = s.st := rfl
@[simp] theorem State.markUnknown_dirty (s : State) : (s.markUnknown).dirty = s.dirty := rfl
@[simp] theorem State.markUnknown_halted (s : State) : (s.markUnknown).halted = s.halted := rfl
@[simp] theorem State.markUnknown_err (s : State) : (s.markUnknown).err = s.err := rfl
@[simp] theorem State.markUnknown_errAddr (s : State) : (s.markUnknown).errAddr = s.errAddr := rfl
@[simp] theorem State.markUnknown_unkSeen (s : State) : (s.markUnknown).unkSeen = true := rfl
@[simp] theorem State.markUnknown_rndIn (s : State) : (s.markUnknown).rndIn = s.rndIn := rfl
@[simp] theorem State.markUnknown_rndDraws (s : State) : (s.markUnknown).rndDraws = s.rndDraws := rfl
@[simp] theorem State.markUnknown_cfg (s : State) : (s.markUnknown).cfg = s.cfg := rfl
@[simp] theorem State.markUnknown_reg (s : State) (q : Reg) : (s.markUnknown).reg q = s.reg q := rfl

/-! ## showDisplay -/

@[simp] theorem State.showDisplay_mem (s : State) (d : Display) : (s.showDisplay d).mem = s.mem := rfl
@[simp] theorem State.showDisplay_v (s : State) (d : Display) : (s.showDisplay d).v = s.v := rfl
@[simp] theorem State.showDisplay_i (s : State) (d : Display) : (s.showDisplay d).i = s.i := rfl
@[simp] theorem State.showDisplay_pc (s : State) (d : Display) : (s.showDisplay d).pc = s.pc := rfl
@[simp] theorem State.showDisplay_stack (s : State) (d : Display) : (s.showDisplay d).stack = s.stack := rfl
@[simp] theorem State.showDisplay_sp (s : State) (d : Display) : (s.showDisplay d).sp = s.sp := rfl
@[simp] theorem State.showDisplay_disp (s : State) (d : Display) : (s.showDisplay d).disp = d := rfl
@[simp] theorem State.showDisplay_dt (s : State) (d : Display) : (s.showDisplay d).dt = s.dt := rfl
@[simp] theorem State.showDisplay_st (s : State) (d : Display) : (s.showDisplay d).st = s.st := rfl
@[simp] theorem State.showDisplay_dirty (s : State) (d : Display) : (s.showDisplay d).dirty = true := rfl
@[simp] theorem State.showDisplay_halted (s : State) (d : Display) : (s.showDisplay d).halted = s.halted := rfl
@[simp] theorem State.showDisplay_err (s : State) (d : Display) : (s.showDisplay d).err = s.err := rfl
@[simp] theorem State.showDisplay_errAddr (s : State) (d : Display) : (s.showDisplay d).errAddr = s.errAddr := rfl
@[simp] theorem State.showDisplay_unkSeen (s : State) (d : Display) : (s.showDisplay d).unkSeen = s.unkSeen := rfl
@[simp] theorem State.showDisplay_rndIn (s : State) (d : Display) : (s.showDisplay d).rndIn = s.rndIn := rfl
@[simp] theorem State.showDisplay_rndDraws (s : State) (d : Display) : (s.showDisplay d).rndDraws = s.rndDraws := rfl
@[simp] theorem State.showDisplay_cfg (s : State) (d : Display) : (s.showDisplay d).cfg = s.cfg := rfl
@[simp] theorem State.showDisplay_reg (s : State) (d : Display) (q : Reg) : (s.showDisplay d).reg q = s.reg q := rfl

/-! ## setRegFlag -/

@[simp] theorem State.setRegFlag_mem (s : State) (x : Reg) (b : Byte) (c : Bool) :
    (s.setRegFlag x b c).mem = s.mem := rfl
@[simp] theorem State.setRegFlag_v (s : State) (x : Reg) (b : Byte) (c : Bool) :
    (s.setRegFlag x b c).v = (s.v.set x b).set VF (flagByte c) := rfl
@[simp] theorem State.setRegFlag_i (s : State) (x : Reg) (b : Byte) (c : Bool) : (s.setRegFlag x b c).i = s.i := rfl
@[simp] theorem State.setRegFlag_pc (s : State) (x : Reg) (b : Byte) (c : Bool) :
    (s.setRegFlag x b c).pc = s.pc := rfl
@[simp] theorem State.setRegFlag_stack (s : State) (x : Reg) (b : Byte) (c : Bool) :
    (s.setRegFlag x b c).stack = s.stack := rfl
@[simp] theorem State.setRegFlag_sp (s : State) (x : Reg) (b : Byte) (c : Bool) :
    (s.setRegFlag x b c).sp = s.sp := rfl
@[simp] theorem State.setRegFlag_disp (s : State) (x : Reg) (b : Byte) (c : Bool) :
    (s.setRegFlag x b c).disp = s.disp := rfl
@[simp] theorem State.setRegFlag_dt (s : State) (x : Reg) (b : Byte) (c : Bool) :
    (s.setRegFlag x b c).dt = s.dt := rfl
@[simp] theorem State.setRegFlag_st (s : State) (x : Reg) (b : Byte) (c : Bool) :
    (s.setRegFlag x b c).st = s.st := rfl
@[simp] theorem State.setRegFlag_dirty (s : State) (x : Reg) (b : Byte) (c : Bool) :
    (s.setRegFlag x b c).dirty = s.dirty := rfl
@[simp] theorem State.setRegFlag_halted (s : State) (x : Reg) (b : Byte) (c : Bool) :
    (s.setRegFlag x b c).halted = s.halted := rfl
@[simp] theorem State.setRegFlag_err (s : State) (x : Reg) (b : Byte) (c : Bool) :
    (s.setRegFlag x b c).err = s.err := rfl
@[simp] theorem State.setRegFlag_errAddr (s : State) (x : Reg) (b : Byte) (c : Bool) :
    (s.setRegFlag x b c).errAddr = s.errAddr := rfl
@[simp] theorem State.setRegFlag_unkSeen (s : State) (x : Reg) (b : Byte) (c : Bool) :
    (s.setRegFlag x b c).unkSeen = s.unkSeen := rfl
@[simp] theorem State.setRegFlag_rndIn (s : State) (x : Reg) (b : Byte) (c : Bool) :
    (s.setRegFlag x b c).rndIn = s.rndIn := rfl
@[simp] theorem State.setRegFlag_rndDraws (s : State) (x : Reg) (b : Byte) (c : Bool) :
    (s.setRegFlag x b c).rndDraws = s.rndDraws := rfl
@[simp] theorem State.setRegFlag_cfg (s : State) (x : Reg) (b : Byte) (c : Bool) :
    (s.setRegFlag x b c).cfg = s.cfg := rfl

/-! ## tick -/

@[simp] theorem State.tick_mem (s : State) : (s.tick).mem = s.mem := rfl
@[simp] theorem State.tick_v (s : State) : (s.tick).v = s.v := rfl
@[simp] theorem State.tick_i (s : State) : (s.tick).i = s.i := rfl
@[simp] theorem State.tick_pc (s : State) : (s.tick).pc = s.pc := rfl
@[simp] theorem State.tick_stack (s : State) : (s.tick).stack = s.stack := rfl
@[simp] theorem State.tick_sp (s : State) : (s.tick).sp = s.sp := rfl
@[simp] theorem State.tick_disp (s : State) : (s.tick).disp = s.disp := rfl
@[simp] theorem State.tick_dt (s : State) : (s.tick).dt = countDown s.dt := rfl
@[simp] theorem State.tick_st (s : State) : (s.tick).st = countDown s.st := rfl
@[simp] theorem State.tick_dirty (s : State) : (s.tick).dirty = s.dirty := rfl
@[simp] theorem State.tick_halted (s : State) : (s.tick).halted = s.halted := rfl
@[simp] theorem State.tick_err (s : State) : (s.tick).err = s.err := rfl
@[simp] theorem State.tick_errAddr (s : State) : (s.tick).errAddr = s.errAddr := rfl
@[simp] theorem State.tick_unkSeen (s : State) : (s.tick).unkSeen = s.unkSeen := rfl
@[simp] theorem State.tick_rndIn (s : State) : (s.tick).rndIn = s.rndIn := rfl
@[simp] theorem State.tick_rndDraws (s : State) : (s.tick).rndDraws = s.rndDraws := rfl
@[simp] theorem State.tick_cfg (s : State) : (s.tick).cfg = s.cfg := rfl
@[simp] theorem State.tick_reg (s : State) (q : Reg) : (s.tick).reg q = s.reg q := rfl

/-! ## consumeRnd -/

@[simp] theorem State.consumeRnd_mem (s : State) : (s.consumeRnd).mem = s.mem := rfl
@[simp] theorem State.consumeRnd_v (s : State) : (s.consumeRnd).v = s.v := rfl
@[simp] theorem State.consumeRnd_i (s : State) : (s.consumeRnd).i = s.i := rfl
@[simp] theorem State.consumeRnd_pc (s : State) : (s.consumeRnd).pc = s.pc := rfl
@[simp] theorem State.consumeRnd_stack (s : State) : (s.consumeRnd).stack = s.stack := rfl
@[simp] theorem State.consumeRnd_sp (s : State) : (s.consumeRnd).sp = s.sp := rfl
@[simp] theorem State.consumeRnd_disp (s : State) : (s.consumeRnd).disp = s.disp := rfl
@[simp] theorem State.consumeRnd_dt (s : State) : (s.consumeRnd).dt = s.dt := rfl
@[simp] theorem State.consumeRnd_st (s : State) : (s.consumeRnd).st = s.st := rfl
@[simp] theorem State.consumeRnd_dirty (s : State) : (s.consumeRnd).dirty = s.dirty := rfl
@[simp] theorem State.consumeRnd_halted (s : State) : (s.consumeRnd).halted = s.halted := rfl
@[simp] theorem State.consumeRnd_err (s : State) : (s.consumeRnd).err = s.err := rfl
@[simp] theorem State.consumeRnd_errAddr (s : State) : (s.consumeRnd).errAddr = s.errAddr := rfl
@[simp] theorem State.consumeRnd_unkSeen (s : State) : (s.consumeRnd).unkSeen = s.unkSeen := rfl
@[simp] theorem State.consumeRnd_rndIn (s : State) : (s.consumeRnd).rndIn = s.rndIn.tail := rfl
@[simp] theorem State.consumeRnd_rndDraws (s : State) :
    (s.consumeRnd).rndDraws = if s.rndIn.isEmpty then s.rndDraws + 1 else s.rndDraws := rfl
@[simp] theorem State.consumeRnd_cfg (s : State) : (s.consumeRnd).cfg = s.cfg := rfl
@[simp] theorem State.consumeRnd_reg (s : State) (q : Reg) : (s.consumeRnd).reg q = s.reg q := rfl

/-! ## raise -/

@[simp] theorem State.raise_mem (s : State) (e : FatalError) : (s.raise e).mem = s.mem := rfl
@[simp] theorem State.raise_v (s : State) (e : FatalError) : (s.raise e).v = s.v := rfl
@[simp] theorem State.raise_i (s : State) (e : FatalError) : (s.raise e).i = s.i := rfl
@[simp] theorem State.raise_pc (s : State) (e : FatalError) : (s.raise e).pc = s.pc := rfl
@[simp] theorem State.raise_stack (s : State) (e : FatalError) : (s.raise e).stack = s.stack := rfl
@[simp] theorem State.raise_sp (s : State) (e : FatalError) : (s.raise e).sp = s.sp := rfl
@[simp] theorem State.raise_disp (s : State) (e : FatalError) : (s.raise e).disp = s.disp := rfl
@[simp] theorem State.raise_dt (s : State) (e : FatalError) : (s.raise e).dt = s.dt := rfl
@[simp] theorem State.raise_st (s : State) (e : FatalError) : (s.raise e).st = s.st := rfl
@[simp] theorem State.raise_dirty (s : State) (e : FatalError) : (s.raise e).dirty = s.dirty := rfl
@[simp] theorem State.raise_halted (s : State) (e : FatalError) : (s.raise e).halted = true := rfl
@[simp] theorem State.raise_err (s : State) (e : FatalError) : (s.raise e).err = e.code := rfl
@[simp] theorem State.raise_errAddr (s : State) (e : FatalError) : (s.raise e).errAddr = e.addr := rfl
@[simp] theorem State.raise_unkSeen (s : State) (e : FatalError) : (s.raise e).unkSeen = s.unkSeen := rfl
@[simp] theorem State.raise_rndIn (s : State) (e : FatalError) : (s.raise e).rndIn = s.rndIn := rfl
@[simp] theorem State.raise_rndDraws (s : State) (e : FatalError) : (s.raise e).rndDraws = s.rndDraws := rfl
@[simp] theorem State.raise_cfg (s : State) (e : FatalError) : (s.raise e).cfg = s.cfg := rfl
@[simp] theorem State.raise_reg (s : State) (e : FatalError) (q : Reg) : (s.raise e).reg q = s.reg q := rfl

/-! ## loadByte -/

@[simp] theorem State.loadByte_mem (s : State) (a : Addr) (b : Byte) :
    (s.loadByte a b).mem = s.mem.write a.toNat b := rfl
@[simp] theorem State.loadByte_v (s : State) (a : Addr) (b : Byte) : (s.loadByte a b).v = s.v := rfl
@[simp] theorem State.loadByte_i (s : State) (a : Addr) (b : Byte) : (s.loadByte a b).i = s.i := rfl
@[simp] theorem State.loadByte_pc (s : State) (a : Addr) (b : Byte) : (s.loadByte a b).pc = s.pc := rfl
@[simp] theorem State.loadByte_stack (s : State) (a : Addr) (b : Byte) : (s.loadByte a b).stack = s.stack := rfl
@[simp] theorem State.loadByte_sp (s : State) (a : Addr) (b : Byte) : (s.loadByte a b).sp = s.sp := rfl
@[simp] theorem State.loadByte_disp (s : State) (a : Addr) (b : Byte) : (s.loadByte a b).disp = s.disp := rfl
@[simp] theorem State.loadByte_dt (s : State) (a : Addr) (b : Byte) : (s.loadByte a b).dt = s.dt := rfl
@[simp] theorem State.loadByte_st (s : State) (a : Addr) (b : Byte) : (s.loadByte a b).st = s.st := rfl
@[simp] theorem State.loadByte_dirty (s : State) (a : Addr) (b : Byte) : (s.loadByte a b).dirty = s.dirty := rfl
@[simp] theorem State.loadByte_halted (s : State) (a : Addr) (b : Byte) : (s.loadByte a b).halted = s.halted := rfl
@[simp] theorem State.loadByte_err (s : State) (a : Addr) (b : Byte) : (s.loadByte a b).err = s.err := rfl
@[simp] theorem State.loadByte_errAddr (s : State) (a : Addr) (b : Byte) : (s.loadByte a b).errAddr = s.errAddr := rfl
@[simp] theorem State.loadByte_unkSeen (s : State) (a : Addr) (b : Byte) : (s.loadByte a b).unkSeen = s.unkSeen := rfl
@[simp] theorem State.loadByte_rndIn (s : State) (a : Addr) (b : Byte) : (s.loadByte a b).rndIn = s.rndIn := rfl
@[simp] theorem State.loadByte_rndDraws (s : State) (a : Addr) (b : Byte) :
    (s.loadByte a b).rndDraws = s.rndDraws := rfl
@[simp] theorem State.loadByte_cfg (s : State) (a : Addr) (b : Byte) : (s.loadByte a b).cfg = s.cfg := rfl
@[simp] theorem State.loadByte_reg (s : State) (a : Addr) (b : Byte) (q : Reg) : (s.loadByte a b).reg q = s.reg q := rfl

/-! ## placeWord -/

@[simp] theorem State.placeWord_mem (s : State) (w : Word) :
    (s.placeWord w).mem = (s.mem.write s.pc.toNat (highByte w)).write (s.pc.toNat + 1) (lowByte w) := rfl
@[simp] theorem State.placeWord_v (s : State) (w : Word) : (s.placeWord w).v = s.v := rfl
@[simp] theorem State.placeWord_i (s : State) (w : Word) : (s.placeWord w).i = s.i := rfl
@[simp] theorem State.placeWord_pc (s : State) (w : Word) : (s.placeWord w).pc = s.pc := rfl
@[simp] theorem State.placeWord_stack (s : State) (w : Word) : (s.placeWord w).stack = s.stack := rfl
@[simp] theorem State.placeWord_sp (s : State) (w : Word) : (s.placeWord w).sp = s.sp := rfl
@[simp] theorem State.placeWord_disp (s : State) (w : Word) : (s.placeWord w).disp = s.disp := rfl
@[simp] theorem State.placeWord_dt (s : State) (w : Word) : (s.placeWord w).dt = s.dt := rfl
@[simp] theorem State.placeWord_st (s : State) (w : Word) : (s.placeWord w).st = s.st := rfl
@[simp] theorem State.placeWord_dirty (s : State) (w : Word) : (s.placeWord w).dirty = s.dirty := rfl
@[simp] theorem State.placeWord_halted (s : State) (w : Word) : (s.placeWord w).halted = s.halted := rfl
@[simp] theorem State.placeWord_err (s : State) (w : Word) : (s.placeWord w).err = s.err := rfl
@[simp] theorem State.placeWord_errAddr (s : State) (w : Word) : (s.placeWord w).errAddr = s.errAddr := rfl
@[simp] theorem State.placeWord_unkSeen (s : State) (w : Word) : (s.placeWord w).unkSeen = s.unkSeen := rfl
@[simp] theorem State.placeWord_rndIn (s : State) (w : Word) : (s.placeWord w).rndIn = s.rndIn := rfl
@[simp] theorem State.placeWord_rndDraws (s : State) (w : Word) : (s.placeWord w).rndDraws = s.rndDraws := rfl
@[simp] theorem State.placeWord_cfg (s : State) (w : Word) : (s.placeWord w).cfg = s.cfg := rfl
@[simp] theorem State.placeWord_reg (s : State) (w : Word) (q : Reg) : (s.placeWord w).reg q = s.reg q := rfl

/-! ## Register reads -/

@[simp] theorem State.setReg_reg (s : State) (r : Reg) (b : Byte) (q : Reg) :
    (s.setReg r b).reg q = if q = r then b else s.reg q := by
  by_cases h : q = r
  · subst h; simp [State.reg]
  · have : r.val ≠ q.val := fun e => h (Fin.ext e.symm)
    simp [State.reg, h, this]

/-- The two writes of a flagged operation: the flag wins on VF (41_data_alu.md R69). -/
@[simp] theorem State.setRegFlag_reg (s : State) (x : Reg) (b : Byte) (c : Bool) (q : Reg) :
    (s.setRegFlag x b c).reg q = if q = VF then flagByte c else if q = x then b else s.reg q := by
  simp [State.setRegFlag]

end Sys2Proof.Machine
end

