-- ==== Sys2Proof/Laws/Ops.lean ====
section
/-! SUPPORT. One lemma for each shared operation that says everything it can do, for later proofs to cite instead of
unfolding it. -/

namespace Sys2Proof.Machine

/-! ## Memory access -/

theorem firstOutside_eq_none (addr n : Nat) : firstOutside addr n = none ↔ n = 0 ∨ addr + n ≤ 0x1000 := by
  simp only [firstOutside]
  split <;> simp <;> omega

theorem firstOutside_eq_some {addr n : Nat} (hn : 0 < n) (h : 0x1000 < addr + n) :
    firstOutside addr n = some (BitVec.ofNat 16 (max addr 0x1000)) := by
  simp only [firstOutside]
  rw [if_pos (by omega)]

/-- `MemRead` answers the bytes in order of address, or raises OutOfBoundsAccess at its lowest address above 0xFFF. -/
theorem State.memRead_cases (s : State) (addr n : Nat) :
    (n = 0 ∨ addr + n ≤ 0x1000) ∧ s.memRead addr n = .ok ((List.range n).map fun k => s.mem.read (addr + k)) ∨
    (0 < n ∧ 0x1000 < addr + n) ∧
      s.memRead addr n = .error (.outOfBoundsAccess (BitVec.ofNat 16 (max addr 0x1000))) := by
  by_cases h : n = 0 ∨ addr + n ≤ 0x1000
  · exact .inl ⟨h, by rw [State.memRead, (firstOutside_eq_none addr n).2 h]⟩
  · exact .inr ⟨by omega, by rw [State.memRead, firstOutside_eq_some (by omega) (by omega)]⟩

/-- The fetch answers the big-endian word at pc, or raises OutOfBoundsAccess (44_cycle.md R96). -/
theorem State.fetch_cases (s : State) :
    s.pc.toNat ≤ 0xFFE ∧ s.fetch = .ok (composeWord (s.mem.read s.pc.toNat) (s.mem.read (s.pc.toNat + 1))) ∨
    0xFFE < s.pc.toNat ∧ s.fetch = .error (.outOfBoundsAccess (BitVec.ofNat 16 (max s.pc.toNat 0x1000))) := by
  by_cases h : s.pc.toNat ≤ 0xFFE
  · exact .inl ⟨h, by rw [State.fetch, (firstOutside_eq_none _ 2).2 (by omega)]⟩
  · exact .inr ⟨by omega, by rw [State.fetch, firstOutside_eq_some (by omega) (by omega)]⟩

/-! ## The stack -/

/-- Push writes the next free entry and counts it, or raises StackOverflow with sixteen entries. -/
theorem State.push_cases (s : State) (w : Word) :
    (∃ (h : s.sp.val < 16), s.push w =
      .ok { s with stack := s.stack.set s.sp.val w h, sp := ⟨s.sp.val + 1, by omega⟩ }) ∨
    s.sp.val = 16 ∧ s.push w = .error .stackOverflow := by
  by_cases h : s.sp.val < 16
  · exact .inl ⟨h, by simp [State.push, h]⟩
  · exact .inr ⟨by omega, by simp [State.push, h]⟩

/-- Pop answers the entry under the new `sp` and uncounts it, or raises StackUnderflow with none. -/
theorem State.pop_cases (s : State) :
    (∃ (_ : 0 < s.sp.val), s.pop = .ok (s.stack[s.sp.val - 1], { s with sp := ⟨s.sp.val - 1, by omega⟩ })) ∨
    s.sp.val = 0 ∧ s.pop = .error .stackUnderflow := by
  by_cases h : 0 < s.sp.val
  · exact .inl ⟨h, by simp [State.pop, h]⟩
  · exact .inr ⟨by omega, by simp [State.pop, h]⟩

/-! ## Committing an instruction -/

@[simp] theorem State.commit_ok (s t : State) : s.commit (.ok t) = t := rfl

@[simp] theorem State.commit_error (s : State) (e : FatalError) : s.commit (.error e) = s.raise e := rfl

/-! ## The display -/

@[simp] theorem Display.pixel_blank (p : Pixel) : Display.blank.pixel p = false := by
  simp [Display.pixel, Display.blank]

/-- Toggling inverts one pixel and no other. -/
theorem Display.pixel_toggle (d : Display) (p q : Pixel) :
    (d.toggle p).pixel q = if q = p then !d.pixel p else d.pixel q := by
  obtain ⟨px, py⟩ := p
  obtain ⟨qx, qy⟩ := q
  by_cases hy : qy = py
  · subst hy
    by_cases hx : qx = px
    · subst hx; simp [Display.pixel, Display.toggle]
    · have : ¬ qx.val = px.val := fun e => hx (Fin.ext e)
      simp [Display.pixel, Display.toggle, hx, this]
  · have : ¬ py.val = qy.val := fun e => hy (Fin.ext e.symm)
    simp [Display.pixel, Display.toggle, hy, this]

/-- The draw loop from any point of its run: the collision flag is only ever added to. -/
theorem Display.foldl_plot_cons (acc : Display × Bool) (p : Pixel) (ps : List Pixel) :
    (p :: ps).foldl Display.plot acc = ps.foldl Display.plot (acc.1.toggle p, acc.2 || acc.1.pixel p) := rfl

theorem mem_rowPoints (edge : DrawEdge) (cx cy : Nat) (row : Byte) (p : Pixel) :
    p ∈ rowPoints edge cx cy row ↔ ∃ col < 8, row.getLsbD (7 - col) = true ∧ place edge (cx + col) cy = some p := by
  simp only [rowPoints, List.mem_filterMap, List.mem_range]
  constructor
  · rintro ⟨col, hcol, h⟩
    split at h
    · exact ⟨col, hcol, ‹_›, h⟩
    · cases h
  · rintro ⟨col, hcol, hb, h⟩
    exact ⟨col, hcol, by rw [if_pos hb, h]⟩

theorem mem_spritePoints (edge : DrawEdge) (cx : Nat) (p : Pixel) (rows : List Byte) (cy : Nat) :
    p ∈ spritePoints edge cx cy rows ↔
      ∃ row, ∃ h : row < rows.length, p ∈ rowPoints edge cx (cy + row) rows[row] := by
  induction rows generalizing cy with
  | nil => simp [spritePoints]
  | cons b bs ih =>
    simp only [spritePoints, List.mem_append, ih]
    constructor
    · rintro (h | ⟨row, hr, h⟩)
      · exact ⟨0, by simp, by simpa using h⟩
      · exact ⟨row + 1, by simpa using hr, by
          simpa [Nat.add_comm, Nat.add_left_comm, Nat.add_assoc] using h⟩
    · rintro ⟨row, hr, h⟩
      cases row with
      | zero => exact .inl (by simpa using h)
      | succ row =>
        exact .inr ⟨row, by simpa using hr, by
          simpa [Nat.add_comm, Nat.add_left_comm, Nat.add_assoc] using h⟩

/-! ## Timers and the random source -/

theorem countDown_toNat (b : Byte) : (countDown b).toNat = b.toNat - 1 := by
  simp only [countDown]
  split
  · subst_vars; rfl
  · rename_i h
    have h0 : b.toNat ≠ 0 := fun e => h (BitVec.eq_of_toNat_eq (by simpa using e))
    have := b.isLt
    rw [BitVec.toNat_sub]
    simp
    omega

theorem State.rndByte_announced {s : State} {b : Byte} {rest : List Byte} (h : s.rndIn = b :: rest) :
    s.rndByte = b := by
  simp [State.rndByte, h]

/-! ## The step -/

/-- Everything a step can do (44_cycle.md R94): ignored, a fetch error, an instruction, or an UNKNOWN word. -/
theorem cycle_cases (s : State) :
    s.halted = true ∧ cycle s = .next (s, Events.none) ∨
    s.halted = false ∧ (∃ e, s.fetch = .error e ∧ cycle s = .next (s.raise e, Events.none)) ∨
    s.halted = false ∧ (∃ w i, s.fetch = .ok w ∧ decode w = .instr i ∧
      cycle s = finishStep none (exec i s)) ∨
    s.halted = false ∧ (∃ w u, s.fetch = .ok w ∧ decode w = .unknown u ∧
      cycle s = finishStep (some u) (execUnknown s)) := by
  by_cases hh : s.halted = true
  · exact .inl ⟨hh, by simp [cycle, hh]⟩
  · have hh : s.halted = false := by simpa using hh
    refine .inr ?_
    cases hf : s.fetch with
    | error e => exact .inl ⟨hh, e, rfl, by simp [cycle, hh, hf]⟩
    | ok w =>
      cases hd : decode w with
      | instr i => exact .inr (.inl ⟨hh, w, i, rfl, hd, by simp [cycle, hh, hf, runWord, hd]⟩)
      | unknown u => exact .inr (.inr ⟨hh, w, u, rfl, hd, by simp [cycle, hh, hf, runWord, hd]⟩)

end Sys2Proof.Machine
end

