-- ==== Sys2Proof/Laws/PerInstr.lean ====
section
/-! SUPPORT. The family of statements that hold of every instruction as syntax, one lemma per constructor: its word
carries the primary opcode of its row of the opcode map (spec 30_encoding.md R48). -/

namespace Sys2Proof.Laws.PrimaryOpcode

/-- The primary opcode `op = w[15:12]` of each row of 30_encoding.md R48. -/
def opOf : Instr → Nibble
  | .cls | .ret => 0x0#4
  | .jp _ => 0x1#4
  | .call _ => 0x2#4
  | .seImm _ _ => 0x3#4
  | .sneImm _ _ => 0x4#4
  | .seReg _ _ => 0x5#4
  | .ldImm _ _ => 0x6#4
  | .addImm _ _ => 0x7#4
  | .ldReg _ _ | .orReg _ _ | .andReg _ _ | .xorReg _ _ | .addReg _ _ | .subReg _ _ | .shr _ _ | .subn _ _
  | .shl _ _ => 0x8#4
  | .sneReg _ _ => 0x9#4
  | .ldI _ => 0xA#4
  | .jpV0 _ => 0xB#4
  | .rnd _ _ => 0xC#4
  | .drw _ _ _ => 0xD#4

/-- The encoded word carries the row's primary opcode. -/
def Statement (i : Instr) : Prop := (fields (encode i)).op = opOf i

theorem cls : Statement .cls := rfl
theorem ret : Statement .ret := rfl
theorem jp (nnn : Addr) : Statement (.jp nnn) := formNNN_op _ _
theorem call (nnn : Addr) : Statement (.call nnn) := formNNN_op _ _
theorem seImm (x : Reg) (kk : Byte) : Statement (.seImm x kk) := formXKK_op _ _ _
theorem sneImm (x : Reg) (kk : Byte) : Statement (.sneImm x kk) := formXKK_op _ _ _
theorem seReg (x y : Reg) : Statement (.seReg x y) := formXYN_op _ _ _ _
theorem ldImm (x : Reg) (kk : Byte) : Statement (.ldImm x kk) := formXKK_op _ _ _
theorem addImm (x : Reg) (kk : Byte) : Statement (.addImm x kk) := formXKK_op _ _ _
theorem ldReg (x y : Reg) : Statement (.ldReg x y) := formXYN_op _ _ _ _
theorem orReg (x y : Reg) : Statement (.orReg x y) := formXYN_op _ _ _ _
theorem andReg (x y : Reg) : Statement (.andReg x y) := formXYN_op _ _ _ _
theorem xorReg (x y : Reg) : Statement (.xorReg x y) := formXYN_op _ _ _ _
theorem addReg (x y : Reg) : Statement (.addReg x y) := formXYN_op _ _ _ _
theorem subReg (x y : Reg) : Statement (.subReg x y) := formXYN_op _ _ _ _
theorem shr (x y : Reg) : Statement (.shr x y) := formXYN_op _ _ _ _
theorem subn (x y : Reg) : Statement (.subn x y) := formXYN_op _ _ _ _
theorem shl (x y : Reg) : Statement (.shl x y) := formXYN_op _ _ _ _
theorem sneReg (x y : Reg) : Statement (.sneReg x y) := formXYN_op _ _ _ _
theorem ldI (nnn : Addr) : Statement (.ldI nnn) := formNNN_op _ _
theorem jpV0 (nnn : Addr) : Statement (.jpV0 nnn) := formNNN_op _ _
theorem rnd (x : Reg) (kk : Byte) : Statement (.rnd x kk) := formXKK_op _ _ _
theorem drw (x y : Reg) (n : Fin 16) : Statement (.drw x y n) := formXYN_op _ _ _ _

end Sys2Proof.Laws.PrimaryOpcode
end

