-- ==== Sys2Proof/Tests/Slice0.lean ====
section
/-! SUPPORT. The model's own tests. Expected values are the vectors of spec/95_test_vectors.md (named K, A, G, X, T, S as
there) and words written out from the encodings of spec/30_encoding.md R48. Each runs one step at most. -/

namespace Sys2Proof.Tests

/- One thread: with a thread a theorem the check runs out of thread stacks. -/
set_option Elab.async false

open Sys2Proof Sys2Proof.Machine

/-! ## Helpers -/

/-- The reset state with the word `w` placed at `pc` (the vectors' convention). -/
def start (w : Nat) : State := State.reset.withFetchWord 16 w

/-- A state with the word `w` placed at its `pc`. -/
def State.holding (s : State) (w : Nat) : State := s.withFetchWord 16 w

/-- The state after one step. -/
def ran (s : State) : State :=
  match step s with
  | .next t => t
  | .fault _ => s
  | .refused _ => s

/-- Every step of a test must answer a next state. -/
def answersNext (s : State) : Bool :=
  match step s with
  | .next _ => true
  | .fault _ => false
  | .refused _ => false

/-- The pixels of a list, lit on a blank display. -/
def lit (ps : List Pixel) : Display := ps.foldl Display.toggle Display.blank

/-- The parameter settings of the vectors' right-hand columns. -/
def clipped (s : State) : State := { s with cfg := { s.cfg with drawEdge := .clip } }

def inPlace (s : State) : State := { s with cfg := { s.cfg with shiftSrc := .vx } }

/-! ## WellFormed: an ill-formed term for each check -/

theorem test_wf_accepts_every_operand : Instr.wf (.drw 15 15 15) = true ∧ Instr.wf (.jp 0xFFF) = true := by decide

theorem test_wf_program_too_long : Program.fits (List.replicate 3585 0) = false := by decide +kernel

theorem test_wf_program_longest : Program.fits (List.replicate 3584 0) = true := by decide +kernel

theorem test_wf_jump_into_reserved_region :
    Instr.staysInProgramSpace (.jp 0x1FF) = false ∧ Instr.staysInProgramSpace (.call 0x1FF) = false ∧
    Instr.staysInProgramSpace (.jp 0x200) = true := by decide

/-! ## Decoding: for every row a word written out from its encoding -/

theorem test_decode_cls : decode 0b0000000011100000#16 = .instr .cls := by decide
theorem test_decode_ret : decode 0b0000000011101110#16 = .instr .ret := by decide
theorem test_decode_jp : decode 0b0001001000000100#16 = .instr (.jp 0x204) := by decide
theorem test_decode_call : decode 0b0010001011110000#16 = .instr (.call 0x2F0) := by decide
theorem test_decode_seImm : decode 0b0011101001111111#16 = .instr (.seImm 0xA 0x7F) := by decide
theorem test_decode_sneImm : decode 0b0100001100010001#16 = .instr (.sneImm 3 0x11) := by decide
theorem test_decode_seReg : decode 0b0101000100100000#16 = .instr (.seReg 1 2) := by decide
theorem test_decode_ldImm : decode 0b0110001100101010#16 = .instr (.ldImm 3 0x2A) := by decide
theorem test_decode_addImm : decode 0b0111000111111111#16 = .instr (.addImm 1 0xFF) := by decide
theorem test_decode_ldReg : decode 0b1000000100100000#16 = .instr (.ldReg 1 2) := by decide
theorem test_decode_orReg : decode 0b1000000100100001#16 = .instr (.orReg 1 2) := by decide
theorem test_decode_andReg : decode 0b1000000100100010#16 = .instr (.andReg 1 2) := by decide
theorem test_decode_xorReg : decode 0b1000000100100011#16 = .instr (.xorReg 1 2) := by decide
theorem test_decode_addReg : decode 0b1000000100100100#16 = .instr (.addReg 1 2) := by decide
theorem test_decode_subReg : decode 0b1000000100100101#16 = .instr (.subReg 1 2) := by decide
theorem test_decode_shr : decode 0b1000000100100110#16 = .instr (.shr 1 2) := by decide
theorem test_decode_subn : decode 0b1000000100100111#16 = .instr (.subn 1 2) := by decide
theorem test_decode_shl : decode 0b1000101010111110#16 = .instr (.shl 0xA 0xB) := by decide
theorem test_decode_sneReg : decode 0b1001000100100000#16 = .instr (.sneReg 1 2) := by decide
theorem test_decode_ldI : decode 0b1010001000001010#16 = .instr (.ldI 0x20A) := by decide
theorem test_decode_jpV0 : decode 0b1011001101000101#16 = .instr (.jpV0 0x345) := by decide
theorem test_decode_rnd : decode 0b1100001100001111#16 = .instr (.rnd 3 0x0F) := by decide
theorem test_decode_drw : decode 0b1101000100100101#16 = .instr (.drw 1 2 5) := by decide

/-- X1 to X5: one word of each part of the unknown space. -/
theorem test_decode_unknown :
    decode 0x0000#16 = .unknown 0x0000 ∧ decode 0x00E1#16 = .unknown 0x00E1 ∧ decode 0x0123#16 = .unknown 0x0123 ∧
    decode 0x5121#16 = .unknown 0x5121 ∧ decode 0x9121#16 = .unknown 0x9121 ∧ decode 0x8128#16 = .unknown 0x8128 ∧
    decode 0x812D#16 = .unknown 0x812D ∧ decode 0x812F#16 = .unknown 0x812F ∧ decode 0xE19E#16 = .unknown 0xE19E ∧
    decode 0xF165#16 = .unknown 0xF165 ∧ decode 0xFFFF#16 = .unknown 0xFFFF := by decide +kernel

/-- The bytes of the encoding example of 30_encoding.md section 6: `DRW V1, V2, 5` is `D1 25`. -/
theorem test_encode_bytes : encodeBytes (.drw 1 2 5) = [0xD1, 0x25] ∧ decodeBytes 0xD1 0x25 = .instr (.drw 1 2 5) := by
  decide

theorem test_decodeTableWord : decodeTableWord 16 0x632A = some (.ldImm 3 0x2A) ∧ decodeTableWord 16 0xF015 = none := by
  decide

/-! ## Control flow -/

def fullStack : State := { State.reset with pc := 0x400, sp := 16, stack := (Vector.replicate 16 0).set 15 0xABC }

theorem test_ret_K2 : (ran (State.holding fullStack 0x00EE)).pc = 0xABC ∧
    (ran (State.holding fullStack 0x00EE)).sp = 15 := by decide +kernel

theorem test_ret_K3_underflow : let s := State.holding { State.reset with pc := 0x20A, dt := 9, st := 1 } 0x00EE
    ran s = { s with halted := true, err := .stackUnderflow } := by decide +kernel

theorem test_jp_K5 : (ran (State.holding { State.reset with pc := 0x20A } 0x1204)).pc = 0x204 := by decide +kernel

theorem test_call_K9 : let t := ran (State.holding { State.reset with pc := 0x300, sp := 15 } 0x2ABC)
    t.stack[15] = 0x302 ∧ t.sp = 16 ∧ t.pc = 0xABC := by decide +kernel

theorem test_call_K10_overflow : let s := State.holding { State.reset with pc := 0x300, sp := 16, st := 1 } 0x2ABC
    ran s = { s with halted := true, err := .stackOverflow } ∧ s.events = Events.none := by decide +kernel

theorem test_seImm_K12_K13 :
    (ran ((start 0x3A7F).setReg 0xA 0x7F)).pc = 0x204 ∧ (ran ((start 0x3A7F).setReg 0xA 0x7E)).pc = 0x202 := by
  decide +kernel

theorem test_sneImm_K14_K15 : let s := ({ State.reset with pc := 0x300 } : State).setReg 3 0x10
    (ran (State.holding s 0x4311)).pc = 0x304 ∧ (ran (State.holding s 0x4310)).pc = 0x302 := by decide +kernel

theorem test_seReg_K16_K17 : let s := State.holding { State.reset with pc := 0x210 } 0x5120
    (ran ((s.setReg 1 0x7F).setReg 2 0x7F)).pc = 0x214 ∧ (ran ((s.setReg 1 0x7F).setReg 2 0xFF)).pc = 0x212 := by
  decide +kernel

theorem test_sneReg_K19_K20 : let s := State.holding { State.reset with pc := 0x210 } 0x9120
    (ran ((s.setReg 1 1).setReg 2 2)).pc = 0x214 ∧ (ran ((s.setReg 1 2).setReg 2 2)).pc = 0x212 := by decide +kernel

theorem test_jpV0_K23_K24 : (ran ((start 0xBFFF).setReg 0 0xFF)).pc = 0x10FE ∧
    (ran (((start 0xB345).setReg 0 1).setReg 3 0x80)).pc = 0x346 := by decide +kernel

/-! ## Data movement and ALU -/

theorem test_ldImm_A2 : (ran (start 0x6F55)).reg 0xF = 0x55 ∧ (ran (start 0x6AFF)).reg 0xA = 0xFF := by decide +kernel

theorem test_addImm_A5 : let t := ran (((start 0x71FF).setReg 1 0xFF).setReg 0xF 1)
    t.reg 1 = 0xFE ∧ t.reg 0xF = 1 ∧ t.pc = 0x202 := by decide +kernel

theorem test_ldReg_A6 : let t := ran (((start 0x8120).setReg 1 1).setReg 2 0xAB)
    t.reg 1 = 0xAB ∧ t.reg 2 = 0xAB := by decide +kernel

theorem test_orReg_A7 : let t := ran ((((start 0x8121).setReg 1 0xF0).setReg 2 0x0F).setReg 0xF 1)
    t.reg 1 = 0xFF ∧ t.reg 0xF = 1 := by decide +kernel

theorem test_andReg_A8 : let t := ran ((((start 0x8122).setReg 1 0xFC).setReg 2 0x3F).setReg 0xF 1)
    t.reg 1 = 0x3C ∧ t.reg 0xF = 1 := by decide +kernel

theorem test_xorReg_A9 : let t := ran ((((start 0x8123).setReg 1 0xFF).setReg 2 0x0F).setReg 0xF 1)
    t.reg 1 = 0xF0 ∧ t.reg 0xF = 1 := by decide +kernel

theorem test_addReg_A14_A15 : let t := ran (((start 0x8124).setReg 1 0xFF).setReg 2 0)
    let u := ran (((start 0x8124).setReg 1 0xFF).setReg 2 1)
    (t.reg 1 = 0xFF ∧ t.reg 0xF = 0) ∧ (u.reg 1 = 0 ∧ u.reg 0xF = 1) := by decide +kernel

theorem test_addReg_A10_A12_vf : (ran (((start 0x8F14).setReg 0xF 0xFF).setReg 1 3)).reg 0xF = 1 ∧
    (ran (((start 0x8F14).setReg 0xF 0x10).setReg 1 2)).reg 0xF = 0 ∧
    (ran (((start 0x81F4).setReg 1 0xFF).setReg 0xF 1)).reg 1 = 0 := by decide +kernel

theorem test_subReg_A18_A19 : let t := ran (((start 0x8125).setReg 1 0x0A).setReg 2 0x14)
    let u := ran (((start 0x8125).setReg 1 0x14).setReg 2 0x14)
    (t.reg 1 = 0xF6 ∧ t.reg 0xF = 0) ∧ (u.reg 1 = 0 ∧ u.reg 0xF = 1) := by decide +kernel

theorem test_subn_A23_A24 : let t := ran (((start 0x8127).setReg 1 0x0A).setReg 2 0x14)
    let u := ran (((start 0x8127).setReg 1 0x14).setReg 2 0x0A)
    (t.reg 1 = 0x0A ∧ t.reg 0xF = 1) ∧ (u.reg 1 = 0xF6 ∧ u.reg 0xF = 0) := by decide +kernel

theorem test_shr_A27 : let s := ((start 0x8126).setReg 1 0xFF).setReg 2 4
    ((ran s).reg 1 = 2 ∧ (ran s).reg 0xF = 0) ∧ ((ran (inPlace s)).reg 1 = 0x7F ∧ (ran (inPlace s)).reg 0xF = 1) := by
  decide +kernel

theorem test_shl_A28 : let s := ((start 0x812E).setReg 1 1).setReg 2 0x81
    ((ran s).reg 1 = 2 ∧ (ran s).reg 0xF = 1) ∧ ((ran (inPlace s)).reg 1 = 2 ∧ (ran (inPlace s)).reg 0xF = 0) := by
  decide +kernel

theorem test_ldI_A36 : (ran (start 0xAFFF)).i = 0xFFF := by decide +kernel

theorem test_rnd_A31 : let t := ran (hostMove (.presentRnd [0xA7]) (start 0xC10F))
    t.reg 1 = 0x07 ∧ t.reg 0xF = 0 ∧ t.rndIn = [] := by decide +kernel

/-- With no byte announced RND still runs: a zero immediate gives 0 whatever the draw (A33). -/
theorem test_rnd_A33_free : answersNext ((start 0xC100).setReg 1 0x55) = true ∧
    (ran ((start 0xC100).setReg 1 0x55)).rndDraws = 1 := by decide +kernel

/-! ## Display -/

/-- The start of the display vectors: `I = 300`, the sprite bytes at 0x300. -/
def sprite (w : Nat) (bytes : List Byte) : State :=
  (loadMoves 0x300 bytes).foldl (fun s m => hostMove m s) { start w with i := 0x300, dirty := false }

theorem test_drw_G3 : let t := ran (((sprite 0xD121 [0xA5]).setReg 1 0x0A).setReg 2 5)
    t.disp = lit [(10, 5), (12, 5), (15, 5), (17, 5)] ∧ t.reg 0xF = 0 ∧ t.dirty = true ∧ t.pc = 0x202 := by
  decide +kernel

/-- G18: wrapped and clipped, with a collision of a wrapped pixel. -/
theorem test_drw_G18 : let s := { ((sprite 0xD121 [0x0F]).setReg 1 60) with disp := lit [(0, 0)] }
    ((ran s).disp = lit [(1, 0), (2, 0), (3, 0)] ∧ (ran s).reg 0xF = 1) ∧
    ((ran (clipped s)).disp = lit [(0, 0)] ∧ (ran (clipped s)).reg 0xF = 0) := by decide +kernel

theorem test_cls_G20 : let t := ran ({ start 0x00E0 with disp := lit [(0, 0), (63, 31), (5, 5)], dirty := false }.setReg 0xF 1)
    t.disp = lit [] ∧ t.dirty = true ∧ t.reg 0xF = 1 := by decide +kernel

/-- G17: one byte too far. -/
theorem test_drw_G17_out_of_bounds : let s := { start 0xD00F with i := 0xFF2, dirty := false, dt := 3 }
    ran s = { s with halted := true, err := .outOfBoundsAccess, errAddr := 0x1000 } := by decide +kernel

/-! ## Unknown words, the step, the host -/

theorem test_unknown_X4 : let s := { start 0xE19E with dt := 2, st := 1 }
    ran s = { s with pc := 0x202, unkSeen := true, dt := 1, st := 0 } ∧
    s.events = { beep := true, warn := some 0xE19E } := by decide +kernel

theorem test_fetch_T4_T7 :
    (ran { State.reset with pc := 0xFFF, dt := 1 } =
      { State.reset with pc := 0xFFF, dt := 1, halted := true, err := .outOfBoundsAccess, errAddr := 0x1000 }) ∧
    (ran { State.reset with pc := 0x10FE }).errAddr = 0x10FE ∧
    (ran { State.reset with mem := [(0x200, 0x12), (0x201, 0x34)] }).pc = 0x234 := by decide +kernel

theorem test_halted_T3_T9_T10 : let s := { start 0x00EE with halted := true, err := .stackUnderflow, dt := 9, st := 1 }
    ran s = s ∧ s.events = Events.none ∧ (hostMove (.writeDT 0) s).dt = 0 ∧ (hostMove .reset s) = State.reset := by
  decide +kernel

theorem test_beep_S9 : ({ start 0x6000 with st := 1 }).events.beep = true ∧ (start 0x6000).events.beep = false := by
  decide +kernel

theorem test_memory_write_keeps_form : Memory.write [(1, 5), (3, 7)] 3 0 = [(1, 5)] ∧
    Memory.write [(1, 5), (3, 7)] 2 9 = [(1, 5), (2, 9), (3, 7)] ∧ Memory.wf [(3, 7), (1, 5)] = false ∧
    Memory.wf [(1, 0)] = false ∧ Memory.wf [(4096, 1)] = false := by decide

/-! ## Witnesses: for every statement with hypotheses, operands and states that meet them all, at the boundaries of each
clause. Each is named after its statement. -/

/-- The state an instruction leaves. -/
def did (i : Instr) (s : State) : State :=
  match exec i s with
  | .next t => t
  | .fault _ => s
  | .refused _ => s

theorem witness_DecodedWord : decode 0xD125#16 = .instr (.drw 1 2 5) ∧ decode 0xFFFF#16 = .unknown 0xFFFF := by decide

theorem witness_DecoderAgrees : (∃ r ∈ opcodeMap, 0xD125#16 &&& r.mask = r.pattern) ∧
    ∀ r ∈ opcodeMap, 0x812F#16 &&& r.mask ≠ r.pattern := by decide +kernel

/-- A destination other than VF, with and without a carry, a borrow, a bit shifted out; and VF as the destination. -/
theorem witness_FlaggedDestination : ((1 : Reg) ≠ 0xF) ∧
    255 < (((start 0).setReg 1 0xFF).reg 1).toNat + (((start 0).setReg 2 1).reg 2).toNat ∧
    ¬ 255 < (((start 0).setReg 1 0xFE).reg 1).toNat + (((start 0).setReg 2 1).reg 2).toNat := by decide +kernel

theorem witness_Shifts_source : (if State.reset.cfg.shiftSrc = .vy then ((start 0).setReg 2 0x81).reg 2
      else (start 0).reg 1) = 0x81 ∧
    (if (inPlace State.reset).cfg.shiftSrc = .vy then (start 0).reg 2 else ((start 0).setReg 1 0x40).reg 1) = 0x40 := by
  decide +kernel

theorem witness_Random : (hostMove (.presentRnd [0xA7]) State.reset).rndIn = 0xA7 :: [] ∧ State.reset.rndIn = [] := by
  decide

theorem witness_Call : ({ State.reset with sp := 15 } : State).sp.val < 16 ∧ ({ State.reset with sp := 16 } : State).sp.val = 16 := by
  decide

theorem witness_Return : ({ State.reset with sp := 16 } : State).sp.val = (15 : Fin 16).val + 1 ∧
    ({ State.reset with sp := 1 } : State).sp.val = (0 : Fin 16).val + 1 ∧ State.reset.sp.val = 0 := by decide

theorem witness_ReturnResumes : let s := ({ State.reset with sp := 15 } : State)
    s.sp.val < 16 ∧ exec (.call 0x300) s = .next (did (.call 0x300) s) := ⟨by decide, rfl⟩

theorem witness_SixteenCalls : State.reset.halted = false ∧
    (List.replicate 16 (0x200 : Addr)).length + State.reset.sp.val = 16 ∧
    ([] : List Addr).length + fullStack.sp.val = 16 := by decide

/-- The longest sprite at the end of memory, and no sprite with I above memory. -/
theorem witness_DrawInverts : ({ State.reset with i := 0xFF1 } : State).i.toNat + (15 : Fin 16).val ≤ 0x1000 ∧
    (0 : Fin 16).val = 0 := by decide

theorem witness_DrawBeyond : ({ State.reset with i := 0xFF2 } : State).i.toNat ≤ 0xFFF ∧
    0x1000 < ({ State.reset with i := 0xFF2 } : State).i.toNat + (15 : Fin 16).val ∧
    0x1000 < ({ State.reset with i := 0xFFF } : State).i.toNat + (2 : Fin 16).val := by decide

theorem witness_DrawingTwice : let s := ({ State.reset with i := 0xFF1 } : State)
    s.i.toNat + (15 : Fin 16).val ≤ 0x1000 ∧ (0 : Reg) ≠ 0xF ∧ exec (.drw 0 0 15) s = .next (did (.drw 0 0 15) s) :=
  ⟨by decide, by decide, rfl⟩

theorem witness_EdgeModesAgree : (((start 0).setReg 1 56).reg 1).toNat ≤ 56 ∧
    (((start 0).setReg 2 17).reg 2).toNat + (15 : Fin 16).val ≤ 32 := by decide +kernel

/-- An instruction that completes, and one that is fatal. -/
theorem witness_StepRuns : let s := start 0x632A
    let u := start 0x00EE
    (s.halted = false ∧ s.pc.toNat ≤ 0xFFE ∧ decode s.wordAtPc = .instr (.ldImm 3 0x2A) ∧
      (did (.ldImm 3 0x2A) s).halted = false) ∧
    (u.halted = false ∧ u.pc.toNat ≤ 0xFFE ∧ decode u.wordAtPc = .instr .ret ∧ (did .ret u).halted = true) := by
  decide +kernel

theorem witness_StepRuns_exec : exec (.ldImm 3 0x2A) (start 0x632A) = .next (did (.ldImm 3 0x2A) (start 0x632A)) ∧
    Instr.wf (.ldImm 3 0x2A) = true := ⟨rfl, by decide⟩

/-- At reset, at a halted state, and at a pc beyond memory. -/
theorem witness_PlacedWord : State.reset.mem.wf = true ∧ decodeTableWord 16 0xD125 = some (.drw 1 2 5) ∧
    (({ State.reset with halted := true, pc := 0x10FE } : State).withFetchWord 16 0xD125).pc = 0x200 := by decide +kernel

theorem witness_CanComplete : CanComplete (.call 0) ({ State.reset with sp := 15 } : State) ∧
    CanComplete .ret ({ State.reset with sp := 1 } : State) ∧
    CanComplete (.drw 1 2 15) ({ State.reset with i := 0xFF1 } : State) ∧ CanComplete (.drw 1 2 0) State.reset :=
  ⟨show 15 < 16 by decide, show 0 < 1 by decide, Or.inr (by decide), Or.inl rfl⟩

/-- Every other instruction can complete in every state, at reset for one. -/
theorem witness_CanComplete_always : CanComplete .cls State.reset ∧ CanComplete (.jp 0) State.reset ∧
    CanComplete (.seImm 0 0) State.reset ∧ CanComplete (.sneImm 0 0) State.reset ∧ CanComplete (.seReg 0 0) State.reset ∧
    CanComplete (.ldImm 0 0) State.reset ∧ CanComplete (.addImm 0 0) State.reset ∧ CanComplete (.ldReg 0 0) State.reset ∧
    CanComplete (.orReg 0 0) State.reset ∧ CanComplete (.andReg 0 0) State.reset ∧ CanComplete (.xorReg 0 0) State.reset ∧
    CanComplete (.addReg 0 0) State.reset ∧ CanComplete (.subReg 0 0) State.reset ∧ CanComplete (.shr 0 0) State.reset ∧
    CanComplete (.subn 0 0) State.reset ∧ CanComplete (.shl 0 0) State.reset ∧ CanComplete (.sneReg 0 0) State.reset ∧
    CanComplete (.ldI 0) State.reset ∧ CanComplete (.jpV0 0) State.reset ∧ CanComplete (.rnd 0 0) State.reset :=
  ⟨trivial, trivial, trivial, trivial, trivial, trivial, trivial, trivial, trivial, trivial, trivial, trivial, trivial,
    trivial, trivial, trivial, trivial, trivial, trivial, trivial⟩

/-- A step that is not fatal, and one for each cause: fetch at 0xFFF, fetch at 0x1000, CALL, RET, DRW. -/
theorem witness_FatalErrors : let fetchFff := ({ State.reset with pc := 0xFFF } : State)
    let fetch1000 := ({ State.reset with pc := 0x1000 } : State)
    let call := State.holding fullStack 0x2ABC
    let draw := ({ start 0xD00F with i := 0xFF2 } : State)
    (ran (start 0x6000)).halted = false ∧ (ran fetchFff).errAddr = 0x1000 ∧ (ran fetch1000).errAddr = 0x1000 ∧
    ((ran call).err = .stackOverflow ∧ call.i.toNat ≤ 0xFFF ∧ decode call.wordAtPc = .instr (.call 0xABC)) ∧
    (ran (start 0x00EE)).err = .stackUnderflow ∧
    ((ran draw).err = .outOfBoundsAccess ∧ draw.i.toNat ≤ 0xFFF ∧ decode draw.wordAtPc = .instr (.drw 0 0 15)) := by
  decide +kernel

theorem witness_Fetch : ({ State.reset with pc := 0xFFE } : State).pc.toNat ≤ 0xFFE ∧
    0xFFE < ({ State.reset with pc := 0xFFF } : State).pc.toNat ∧ ({ State.reset with pc := 0xFFF } : State).halted = false ∧
    0x1000 ≤ ({ State.reset with pc := 0x1000 } : State).pc.toNat := by decide

/-- Reset with nothing loaded, and the last pc that can be fetched at. -/
theorem witness_UnknownWord : (State.reset.halted = false ∧ State.reset.pc.toNat ≤ 0xFFE ∧
      decode State.reset.wordAtPc = .unknown State.reset.wordAtPc) ∧
    decode ({ State.reset with pc := 0xFFE } : State).wordAtPc = .unknown 0 := by decide +kernel

/-- A step with a warning and one without, and a halted one. -/
theorem witness_UnkSeen : (cycle State.reset = .next (ran State.reset, { beep := false, warn := some 0 })) ∧
    cycle (start 0x6000) = .next (ran (start 0x6000), Events.none) := ⟨rfl, rfl⟩

theorem witness_PcTable : step (start 0x3000) = .next (ran (start 0x3000)) ∧
    step ({ State.reset with halted := true } : State) = .next { State.reset with halted := true } ∧
    (ran (start 0x00EE)).halted = true ∧ (ran (start 0x3000)).halted = false ∧
    decode (start 0x3000).wordAtPc = .instr (.seImm 0 0) := by
  refine ⟨rfl, rfl, ?_, ?_, ?_⟩ <;> decide +kernel

theorem witness_Vf : let s := ((start 0x8124).setReg 1 0xFF).setReg 2 1
    (ran s).reg 0xF ≠ s.reg 0xF ∧ s.halted = false ∧ (ran s).halted = false ∧
    decode s.wordAtPc = .instr (.addReg 1 2) ∧ flagged (.addReg 1 2) = true := by decide +kernel

theorem witness_OnlyDestination : (3 : Reg) ≠ 0xF ∧ (ran (start 0x632A)).reg 3 ≠ (start 0x632A).reg 3 := by
  decide +kernel

theorem witness_OnlyLoadIndex : (ran (start 0xAFFF)).i ≠ (start 0xAFFF).i ∧ HostMove.writeDT 1 ≠ .reset := by
  decide +kernel

theorem witness_PushAndPop : let call := State.holding { State.reset with sp := 15 } 0x2ABC
    let ret := State.holding fullStack 0x00EE
    call.sp.val < (ran call).sp.val ∧ (ran call).stack[(15 : Fin 16)] ≠ call.stack[(15 : Fin 16)] ∧
    (ran ret).sp.val < ret.sp.val := by decide +kernel

theorem witness_DisplayChange : let s := ({ start 0x00E0 with dirty := false, disp := lit [(63, 31)] } : State)
    (ran s).disp.pixel (63, 31) ≠ s.disp.pixel (63, 31) ∧ (ran s).dirty ≠ s.dirty ∧ (ran s).halted = false ∧
    decode s.wordAtPc = .instr .cls ∧ HostMove.load 0 1 ≠ .reset ∧ HostMove.load 0 1 ≠ .clearDirty := by decide +kernel

/-- The same of DRW. -/
theorem witness_DisplayChange_draw : let s := sprite 0xD001 [0xFF]
    (ran s).disp.pixel (7, 0) ≠ s.disp.pixel (7, 0) ∧ (ran s).dirty ≠ s.dirty ∧ s.halted = false ∧
    (ran s).halted = false ∧ decode s.wordAtPc = .instr (.drw 0 0 1) := by decide +kernel

theorem witness_MemoryWf : State.reset.mem.wf = true ∧ (start 0x632A).mem.wf = true := by decide +kernel

/-- A timer that beeps, one at 0, and a fatal step that leaves both. -/
theorem witness_Timers : let s := ({ start 0x6000 with st := 1 } : State)
    let u := ({ start 0x00EE with st := 1, dt := 3 } : State)
    (cycle s = .next (ran s, { beep := true, warn := none }) ∧ (ran s).halted = false ∧ (ran s).st = 0) ∧
    (cycle u = .next (ran u, Events.none) ∧ (ran u).halted = true ∧ (ran u).st = 1) := by
  refine ⟨⟨rfl, ?_, ?_⟩, ⟨rfl, ?_, ?_⟩⟩ <;> decide +kernel

/-- A run of a self-jump with ST loaded with 2: the beep comes in the second of two steps. -/
theorem witness_Beep : let run : Nat → State := fun j => { start 0x1200 with st := BitVec.ofNat 8 (2 - j) }
    (run 0).st.toNat = 2 ∧ (∀ j < 2, ran (run j) = run (j + 1) ∧ answersNext (run j) = true ∧ (run (j + 1)).halted = false) ∧
    (run 0).events.beep = false ∧ (run 1).events.beep = true := by decide +kernel

theorem witness_Beep_host : (Move.host (.writeST 0)).apply ({ State.reset with st := 1 } : State) =
    .next (State.reset, Events.none) := rfl

theorem witness_Samples : let s := hostMove (.presentRnd [0xA7]) (start 0xC10F)
    (s.halted = false ∧ s.pc.toNat ≤ 0xFFE ∧ decode s.wordAtPc = .instr (.rnd 1 0x0F) ∧ s.rndIn = 0xA7 :: []) ∧
    (start 0xC10F).rndIn = [] ∧ decode (start 0x6000).wordAtPc = .instr (.ldImm 0 0) := by decide +kernel

/-- Reset has the invariant, and so has a halted state; a step and a host move from it. -/
theorem witness_Invariant : State.reset.Inv ∧ Move.step.apply State.reset = .next (ran State.reset, State.reset.events) ∧
    (Move.host (.load 0x200 0x12)).apply State.reset = .next (hostMove (.load 0x200 0x12) State.reset, Events.none) :=
  ⟨⟨by decide, by decide, by decide, by decide, by decide, by decide⟩, rfl, rfl⟩

theorem witness_Invariant_halted : (ran (start 0x00EE)).Inv := by
  refine ⟨?_, ?_, ?_, ?_, ?_, ?_⟩ <;> decide +kernel

theorem witness_Halted : let s := ({ State.reset with halted := true, err := .stackUnderflow } : State)
    Move.step ≠ .host .reset ∧ s.halted = true ∧ Move.step.apply s = .next (s, Events.none) ∧
    HostMove.clearDirty ≠ .reset := ⟨by decide, rfl, rfl, by decide⟩

/-- The longest program, and its first and last byte. -/
theorem witness_Loader : State.reset.mem.wf = true ∧ Program.fits (List.replicate 3584 0x12) = true ∧
    0 < (List.replicate 3584 (0x12 : Byte)).length ∧ 3583 < (List.replicate 3584 (0x12 : Byte)).length ∧
    Program.fits [] = true := by decide +kernel

end Sys2Proof.Tests
end

section
/-! PROOFS. Memory has one write path (spec 20_memory.md R31): no instruction and no step writes it, and of the host's
moves only the loader and reset do. -/

namespace Sys2Proof.Machine

/-! ## What completes a step -/

theorem finishStep_eq_next {warn : Option Word} {r : Result} {p : State × Events} :
    finishStep warn r = .next p ↔ ∃ u, r = .next u ∧ u.finish warn = p := by
  cases r <;> simp [finishStep]

theorem step_eq_next {s t : State} : step s = .next t ↔ ∃ ev, cycle s = .next (t, ev) := by
  cases h : cycle s <;> simp [step, nextState, h, Prod.ext_iff]

@[simp] theorem State.finish_mem (s : State) (warn : Option Word) : (s.finish warn).1.mem = s.mem := by
  simp only [State.finish]
  split <;> simp

/-! ## No instruction writes memory -/

/-- An instruction that may raise keeps memory if its completed state does: a fatal error writes none (60_exceptions.md
R110). -/
theorem State.commit_mem {s : State} {r : Except FatalError State} (hr : ∀ t, r = .ok t → t.mem = s.mem) :
    (s.commit r).mem = s.mem := by
  cases r with
  | ok t => exact hr t rfl
  | error e => rfl

theorem execRet_mem {s t : State} (h : execRet s = .next t) : t.mem = s.mem := by
  cases h
  apply State.commit_mem
  rcases s.pop_cases with ⟨_, hpop⟩ | ⟨_, hpop⟩ <;> rw [hpop]
  · rintro t ⟨⟩; rfl
  · rintro t ⟨⟩

theorem execCall_mem {nnn : Addr} {s t : State} (h : execCall nnn s = .next t) : t.mem = s.mem := by
  cases h
  apply State.commit_mem
  rcases s.push_cases (s.pc + 2) with ⟨_, hpush⟩ | ⟨_, hpush⟩ <;> rw [hpush]
  · rintro t ⟨⟩; rfl
  · rintro t ⟨⟩

@[simp] theorem State.drawSprite_mem (s : State) (x y : Reg) (rows : List Byte) :
    (s.drawSprite x y rows).mem = s.mem := rfl

theorem execDrw_mem {x y : Reg} {n : Fin 16} {s t : State} (h : execDrw x y n s = .next t) : t.mem = s.mem := by
  cases h
  apply State.commit_mem
  cases s.spriteRows n with
  | ok rows => rintro t ⟨⟩; exact s.drawSprite_mem x y rows
  | error e => rintro t ⟨⟩

/-- "Written by ... no instruction in the base set" (20_memory.md R31): RET, CALL and DRW, which may raise, each by its
lemma; every other instruction completes by updates that keep memory. -/
theorem exec_mem {i : Instr} {s t : State} (h : exec i s = .next t) : t.mem = s.mem := by
  cases i with
  | ret => exact execRet_mem h
  | call nnn => exact execCall_mem h
  | drw x y n => exact execDrw_mem h
  | cls | jp | seImm | sneImm | seReg | ldImm | addImm | ldReg | orReg | andReg | xorReg | addReg | subReg | shr
  | subn | shl | sneReg | ldI | jpV0 | rnd => cases h; rfl

theorem execUnknown_mem {s t : State} (h : execUnknown s = .next t) : t.mem = s.mem := by
  cases h
  simp

/-! ## No step writes memory -/

theorem finishStep_mem {warn : Option Word} {r : Result} {s : State} {p : State × Events}
    (hr : ∀ u, r = .next u → u.mem = s.mem) (h : finishStep warn r = .next p) : p.1.mem = s.mem := by
  obtain ⟨u, hu, rfl⟩ := finishStep_eq_next.1 h
  rw [State.finish_mem, hr u hu]

theorem cycle_mem {s : State} {p : State × Events} (h : cycle s = .next p) : p.1.mem = s.mem := by
  rcases cycle_cases s with ⟨-, hc⟩ | ⟨-, e, -, hc⟩ | ⟨-, w, i, -, -, hc⟩ | ⟨-, w, u, -, -, hc⟩ <;> rw [hc] at h
  · cases h; rfl
  · cases h; exact s.raise_mem e
  · exact finishStep_mem (fun _ => exec_mem) h
  · exact finishStep_mem (fun _ => execUnknown_mem) h

theorem step_mem {s t : State} (h : step s = .next t) : t.mem = s.mem := by
  obtain ⟨ev, hc⟩ := step_eq_next.1 h
  exact cycle_mem hc

/-! ## The law of memory -/

/-- Settles O43: a step keeps memory as data (`step_mem`); of the host's moves the loader's write is read back by
`Memory.read_write`, and reset leaves the empty memory, which reads as 0x00. -/
theorem onlyTheLoaderAndResetWriteMemory : Obligations.OnlyTheLoaderAndResetWriteMemory := by
  refine ⟨fun s t h a => by rw [step_mem h], fun s m hwf a => ?_⟩
  cases m with
  | reset => exact Memory.read_nil a
  | load addr b => exact Memory.read_write hwf addr.toNat b a
  | writeDT | writeST | clearDirty | presentRnd => rfl

end Sys2Proof.Machine
end

section
/-! PROOFS. The loader and renderer ports (spec 44_cycle.md R103, R105). -/

namespace Sys2Proof.Machine

/-! ## One loader write -/

theorem hostMove_load_wf {s : State} (hwf : s.mem.wf = true) (addr : Addr) (b : Byte) :
    (hostMove (.load addr b) s).mem.wf = true :=
  State.loadByte_wf hwf addr b

theorem read_hostMove_load {s : State} (hwf : s.mem.wf = true) (addr : Addr) (b : Byte) (a : Nat) :
    (hostMove (.load addr b) s).mem.read a = if a = addr.toNat then b else s.mem.read a :=
  Memory.read_write hwf addr.toNat b a

theorem toNat_loadAddr {base : Nat} (h : base < memSize) : (BitVec.ofNat 12 base).toNat = base :=
  Nat.mod_eq_of_lt h

/-! ## The moves that load a program at a base -/

/-- The bytes loaded to `base` and up: `State.loadProgram` at any base, so that the moves after the first byte's
are again such a load (44_cycle.md R103). -/
def State.loadAt (s : State) (base : Nat) (p : Program) : State :=
  (loadMoves base p).foldl (fun t m => hostMove m t) s

theorem State.loadProgram_eq_loadAt (s : State) (p : Program) : s.loadProgram p = s.loadAt progBase p := rfl

theorem State.loadAt_cons (s : State) (base : Nat) (b : Byte) (p : Program) :
    s.loadAt base (b :: p) = (hostMove (.load (BitVec.ofNat 12 base) b) s).loadAt (base + 1) p := rfl

/-- "Nothing else changes" (44_cycle.md R103), memory apart. -/
theorem State.loadAt_frame (s : State) (base : Nat) (p : Program) : { s.loadAt base p with mem := s.mem } = s := by
  induction p generalizing s base with
  | nil => rfl
  | cons b p ih =>
    have later := ih (hostMove (.load (BitVec.ofNat 12 base) b) s) (base + 1)
    exact congrArg (fun t : State => { t with mem := s.mem }) later

/-- A load that stays inside memory leaves every byte below its base and past its end. -/
theorem State.read_loadAt_outside {s : State} (hwf : s.mem.wf = true) {base : Nat} {p : Program}
    (hfit : base + p.length ≤ memSize) {a : Nat} (ha : a < base ∨ base + p.length ≤ a) :
    (s.loadAt base p).mem.read a = s.mem.read a := by
  induction p generalizing s base with
  | nil => rfl
  | cons b p ih =>
    rw [List.length_cons] at hfit ha
    have hne : a ≠ base := by omega
    rw [State.loadAt_cons, ih (hostMove_load_wf hwf _ b) (by omega) (by omega), read_hostMove_load hwf,
      toNat_loadAddr (by omega), if_neg hne]

/-- Byte `k` stands at `base + k`: the first byte's move puts it there and the later moves, all above it, leave it. -/
theorem State.read_loadAt {s : State} (hwf : s.mem.wf = true) {base : Nat} {p : Program}
    (hfit : base + p.length ≤ memSize) (k : Nat) (hk : k < p.length) :
    (s.loadAt base p).mem.read (base + k) = p[k] := by
  induction p generalizing s base k with
  | nil => exact absurd hk (Nat.not_lt_zero k)
  | cons b p ih =>
    rw [List.length_cons] at hfit
    have hwf' := hostMove_load_wf hwf (BitVec.ofNat 12 base) b
    rw [State.loadAt_cons]
    cases k with
    | zero =>
      rw [State.read_loadAt_outside hwf' (by omega) (by omega), read_hostMove_load hwf, toNat_loadAddr (by omega),
        if_pos (Nat.add_zero base), List.getElem_cons_zero]
    | succ k =>
      rw [show base + (k + 1) = base + 1 + k by omega]
      exact ih hwf' (by omega) k (Nat.lt_of_succ_lt_succ hk)

theorem progBase_add_length_le_memSize {p : Program} (h : p.fits = true) : progBase + p.length ≤ memSize := by
  have hlen : p.length ≤ memSize - progBase := of_decide_eq_true h
  exact (Nat.le_sub_iff_add_le' (by decide)).1 hlen

/-- Settles O52: one write by `read_hostMove_load`; a program that fits by the load at any base, taken at 0x200. -/
theorem loaderStoresTheProgramAtItsBase : Obligations.LoaderStoresTheProgramAtItsBase := by
  refine ⟨fun s addr b hwf => ⟨read_hostMove_load hwf addr b, rfl⟩, fun s p hwf hfits => ?_⟩
  have hend := progBase_add_length_le_memSize hfits
  rw [State.loadProgram_eq_loadAt]
  exact ⟨State.read_loadAt hwf hend, fun a => State.read_loadAt_outside hwf hend, s.loadAt_frame progBase p⟩

/-! ## The renderer -/

/-- Every column and row is an index of the read port's 6 and 5 bits (44_cycle.md R105). -/
theorem State.displayPort_ofNat (s : State) (p : Pixel) :
    s.displayPort (BitVec.ofNat 6 p.1.val) (BitVec.ofNat 5 p.2.val) = s.disp.pixel p := by
  obtain ⟨x, y⟩ := p
  have hx : (BitVec.ofNat 6 x.val).toNat = x.val := Nat.mod_eq_of_lt x.isLt
  have hy : (BitVec.ofNat 5 y.val).toNat = y.val := Nat.mod_eq_of_lt y.isLt
  simp only [State.displayPort, hx, hy]

theorem hostMove_disp {m : HostMove} (hm : m ≠ .reset) (s : State) : (hostMove m s).disp = s.disp := by
  cases m with
  | reset => exact absurd rfl hm
  | load | writeDT | writeST | clearDirty | presentRnd => rfl

/-- Settles O53: the read port by `State.displayPort_ofNat`, the clear by its one field, and no port but reset writes
the display (`hostMove_disp`). -/
theorem rendererReadsPixelsAndClearsDirty : Obligations.RendererReadsPixelsAndClearsDirty :=
  ⟨State.displayPort_ofNat, fun _ => ⟨rfl, rfl⟩, fun s _ hm => hostMove_disp hm s⟩

end Sys2Proof.Machine
end

section
/-! PROOFS. The decoder and the encoder are inverse to each other, and the decoder agrees with the opcode map
(spec 30_encoding.md). -/

namespace Sys2Proof

/-! ## Decoding an encoded instruction -/

theorem decode_encode (i : Instr) : decode (encode i) = .instr i := by
  cases i with
  | cls => rfl
  | ret => rfl
  | jp | call | ldI | jpV0 => simp [decode, encode]
  | seImm | sneImm | ldImm | addImm | rnd => simp [decode, encode]
  | seReg | sneReg | drw => simp [decode, encode]
  | ldReg | orReg | andReg | xorReg | addReg | subReg | shr | subn | shl => simp [decode, encode, decodeAlu]

/-- Settles O1: the word by `decode_encode`; its two bytes compose to the word again. -/
theorem encodeThenDecodeGivesTheInstruction : Obligations.EncodeThenDecodeGivesTheInstruction := by
  intro i
  refine ⟨decode_encode i, ?_⟩
  rw [decodeBytes, composeWord_bytes, decode_encode]

/-! ## Words written as sums -/

theorem decode_ofNat {i : Instr} {k : Nat} (h : (encode i).toNat = k) : decode (BitVec.ofNat 16 k) = .instr i := by
  rw [← h, BitVec.ofNat_toNat, BitVec.setWidth_eq, decode_encode]

theorem decode_ofNat_formNNN {i : Instr} {op : Nibble} {nnn : Addr} {base : Nat} (h : encode i = formNNN op nnn)
    (hbase : base = op.toNat * 4096) : decode (BitVec.ofNat 16 (base + nnn.toNat)) = .instr i :=
  decode_ofNat (by rw [h, formNNN_toNat, hbase])

theorem decode_ofNat_formXKK {i : Instr} {op : Nibble} {x : Reg} {kk : Byte} {base : Nat}
    (h : encode i = formXKK op x kk) (hbase : base = op.toNat * 4096) :
    decode (BitVec.ofNat 16 (base + x.val * 256 + kk.toNat)) = .instr i :=
  decode_ofNat (by rw [h, formXKK_toNat, hbase])

theorem decode_ofNat_formXYN {i : Instr} {op n : Nibble} {x y : Reg} {base : Nat} (h : encode i = formXYN op x y n)
    (hbase : base = op.toNat * 4096 + n.toNat) :
    decode (BitVec.ofNat 16 (base + x.val * 256 + y.val * 16)) = .instr i :=
  decode_ofNat (by rw [h, formXYN_toNat, hbase]; omega)

theorem decode_ofNat_drw (x y : Reg) (n : Fin 16) :
    decode (BitVec.ofNat 16 (0xD000 + x.val * 256 + y.val * 16 + n.val)) = .instr (.drw x y n) :=
  decode_ofNat (by rw [encode, formXYN_toNat, Reg.field_toNat]; rfl)

/-! ## The fields of a word determine it -/

theorem fields_op_toNat (w : Word) : (fields w).op.toNat = w.toNat / 4096 := by
  have := w.isLt
  simp only [fields, BitVec.extractLsb'_toNat, Nat.shiftRight_eq_div_pow]
  omega

theorem fields_x_val (w : Word) : (fields w).x.val = w.toNat / 256 % 16 := by
  simp only [fields, Nibble.index, BitVec.extractLsb'_toNat, Nat.shiftRight_eq_div_pow]

theorem fields_y_val (w : Word) : (fields w).y.val = w.toNat / 16 % 16 := by
  simp only [fields, Nibble.index, BitVec.extractLsb'_toNat, Nat.shiftRight_eq_div_pow]

theorem fields_n_toNat (w : Word) : (fields w).n.toNat = w.toNat % 16 := by
  simp only [fields, BitVec.extractLsb'_toNat, Nat.shiftRight_eq_div_pow]
  omega

theorem fields_kk_toNat (w : Word) : (fields w).kk.toNat = w.toNat % 256 := by
  simp only [fields, BitVec.extractLsb'_toNat, Nat.shiftRight_eq_div_pow]
  omega

theorem fields_nnn_toNat (w : Word) : (fields w).nnn.toNat = w.toNat % 4096 := by
  simp only [fields, BitVec.extractLsb'_toNat, Nat.shiftRight_eq_div_pow]
  omega

/-- Settles O3: one lemma per field. -/
theorem fieldsAreTheSlicesOfTheWord : Obligations.FieldsAreTheSlicesOfTheWord := fun w =>
  ⟨fields_op_toNat w, fields_x_val w, fields_y_val w, fields_n_toNat w, fields_kk_toNat w, fields_nnn_toNat w⟩

theorem formNNN_fields {w : Word} {op : Nibble} (h : (fields w).op = op) : formNNN op (fields w).nnn = w := by
  apply BitVec.eq_of_toNat_eq
  rw [formNNN_toNat, ← h, fields_op_toNat, fields_nnn_toNat]
  omega

theorem formXKK_fields {w : Word} {op : Nibble} (h : (fields w).op = op) :
    formXKK op (fields w).x (fields w).kk = w := by
  apply BitVec.eq_of_toNat_eq
  rw [formXKK_toNat, ← h, fields_op_toNat, fields_x_val, fields_kk_toNat]
  omega

theorem formXYN_fields {w : Word} {op n : Nibble} (h : (fields w).op = op) (hn : (fields w).n = n) :
    formXYN op (fields w).x (fields w).y n = w := by
  apply BitVec.eq_of_toNat_eq
  rw [formXYN_toNat, ← h, ← hn, fields_op_toNat, fields_x_val, fields_y_val, fields_n_toNat]
  omega

/-! ## What a word decodes to -/

/-- `d` is a faithful reading of the word `w`: an instruction whose encoding is `w`, or UNKNOWN with `w` itself. -/
def Decoded.Reads (w : Word) : Decoded → Prop
  | .instr i => encode i = w
  | .unknown u => u = w

theorem decodeSystem_reads (w : Word) : (decodeSystem w).Reads w := by
  unfold decodeSystem
  split
  · exact (‹w = _›).symm
  · split
    · exact (‹w = _›).symm
    · rfl

theorem decodeAlu_reads {w : Word} (h : (fields w).op = 0x8#4) :
    (decodeAlu w (fields w).x (fields w).y (fields w).n).Reads w := by
  unfold decodeAlu
  split
  case h_10 => rfl
  all_goals exact formXYN_fields h ‹_›

/-- Group by group of R48: the fields of the group's format put the word together again. -/
theorem decode_reads (w : Word) : (decode w).Reads w := by
  unfold decode
  dsimp only
  split
  case h_1 => exact decodeSystem_reads w
  case h_9 h => exact decodeAlu_reads h
  case h_14 h => exact formXYN_fields h (Reg.field_index _).symm
  case h_15 => rfl
  case h_2 h | h_3 h | h_11 h | h_12 h => exact formNNN_fields h
  case h_4 h | h_5 h | h_7 h | h_8 h | h_13 h => exact formXKK_fields h
  case h_6 h | h_10 h =>
    split
    · exact formXYN_fields h ‹_›
    · rfl

theorem encode_of_decode {w : Word} {i : Instr} (h : decode w = .instr i) : encode i = w := by
  have reads := decode_reads w
  rwa [h] at reads

theorem eq_of_decode_unknown {w u : Word} (h : decode w = .unknown u) : u = w := by
  have reads := decode_reads w
  rwa [h] at reads

/-- Settles O2: both results are faithful readings of the word (`decode_reads`). -/
theorem decodedWordIsTheEncodingOfItsInstruction : Obligations.DecodedWordIsTheEncodingOfItsInstruction :=
  fun _ => ⟨fun _ => encode_of_decode, fun _ => eq_of_decode_unknown⟩

/-! ## The opcode map -/

theorem op_of_and_mask {w mask p : Word} (hmask : (fields mask).op = 0xF#4) (h : w &&& mask = p) :
    (fields w).op = (fields p).op := by
  subst h
  simp only [fields, BitVec.extractLsb'_and] at hmask ⊢
  rw [hmask]
  exact BitVec.and_allOnes.symm

theorem n_of_and_mask {w mask p : Word} (hmask : (fields mask).n = 0xF#4) (h : w &&& mask = p) :
    (fields w).n = (fields p).n := by
  subst h
  simp only [fields, BitVec.extractLsb'_and] at hmask ⊢
  rw [hmask]
  exact BitVec.and_allOnes.symm

/-- The instruction of a matching row, built from the word's fields, is the one the word encodes: the mask fixes the
group of the word, and with it (in XY rows) the sub-opcode. -/
def OpcodeRow.BuildsEncoded (r : OpcodeRow) : Prop :=
  ∀ w : Word, w &&& r.mask = r.pattern → encode (r.build (fields w)) = w

theorem opcodeRowsLow_buildsEncoded : ∀ r ∈ opcodeRowsLow, r.BuildsEncoded := by
  simp only [opcodeRowsLow, List.forall_mem_cons, List.not_mem_nil, false_imp_iff, implies_true, and_true]
  have whole (w : Word) : w &&& 0xFFFF = w := BitVec.and_allOnes
  refine ⟨?cls, ?ret, ?jp, ?call, ?seImm, ?sneImm, ?seReg, ?ldImm, ?addImm⟩ <;> intro w h
  case cls | ret => exact h.symm.trans (whole w)
  case jp | call => exact formNNN_fields (op_of_and_mask rfl h)
  case seReg => exact formXYN_fields (op_of_and_mask rfl h) (n_of_and_mask rfl h)
  case seImm | sneImm | ldImm | addImm => exact formXKK_fields (op_of_and_mask rfl h)

theorem opcodeRowsAlu_buildsEncoded : ∀ r ∈ opcodeRowsAlu, r.BuildsEncoded := by
  simp only [opcodeRowsAlu, List.forall_mem_cons, List.not_mem_nil, false_imp_iff, implies_true, and_true]
  refine ⟨?_, ?_, ?_, ?_, ?_, ?_, ?_, ?_, ?_⟩ <;> intro w h
  all_goals exact formXYN_fields (op_of_and_mask rfl h) (n_of_and_mask rfl h)

theorem opcodeRowsHigh_buildsEncoded : ∀ r ∈ opcodeRowsHigh, r.BuildsEncoded := by
  simp only [opcodeRowsHigh, List.forall_mem_cons, List.not_mem_nil, false_imp_iff, implies_true, and_true]
  refine ⟨?sneReg, ?ldI, ?jpV0, ?rnd, ?drw⟩ <;> intro w h
  case sneReg => exact formXYN_fields (op_of_and_mask rfl h) (n_of_and_mask rfl h)
  case ldI | jpV0 => exact formNNN_fields (op_of_and_mask rfl h)
  case rnd => exact formXKK_fields (op_of_and_mask rfl h)
  case drw => exact formXYN_fields (op_of_and_mask rfl h) (Reg.field_index _).symm

theorem opcodeMap_buildsEncoded : ∀ r ∈ opcodeMap, r.BuildsEncoded :=
  List.forall_mem_append.2 ⟨List.forall_mem_append.2 ⟨opcodeRowsLow_buildsEncoded, opcodeRowsAlu_buildsEncoded⟩,
    opcodeRowsHigh_buildsEncoded⟩

theorem decode_of_matches {w : Word} {r : OpcodeRow} (hr : r ∈ opcodeMap) (h : w &&& r.mask = r.pattern) :
    decode w = .instr (r.build (fields w)) := by
  have built := opcodeMap_buildsEncoded r hr w h
  calc decode w = decode (encode (r.build (fields w))) := by rw [built]
    _ = .instr (r.build (fields w)) := decode_encode _

theorem formNNN_and_mask (op : Nibble) (nnn : Addr) : formNNN op nnn &&& 0xF000 = op ++ 0#12 := by
  have nibbles : (0xF000 : Word) = BitVec.allOnes 4 ++ 0#12 := rfl
  rw [formNNN, nibbles, BitVec.and_append, BitVec.and_allOnes, BitVec.and_zero]

theorem formXKK_and_mask (op : Nibble) (x : Reg) (kk : Byte) : formXKK op x kk &&& 0xF000 = op ++ 0#4 ++ 0#8 := by
  have nibbles : (0xF000 : Word) = BitVec.allOnes 4 ++ 0#4 ++ 0#8 := rfl
  rw [formXKK, nibbles, BitVec.and_append, BitVec.and_append, BitVec.and_allOnes, BitVec.and_zero, BitVec.and_zero]

theorem formXYN_and_mask (op : Nibble) (x y : Reg) (n : Nibble) :
    formXYN op x y n &&& 0xF00F = op ++ 0#4 ++ 0#4 ++ n := by
  have nibbles : (0xF00F : Word) = BitVec.allOnes 4 ++ 0#4 ++ 0#4 ++ BitVec.allOnes 4 := rfl
  rw [formXYN, nibbles, BitVec.and_append, BitVec.and_append, BitVec.and_append, BitVec.and_allOnes, BitVec.and_zero,
    BitVec.and_zero, BitVec.and_allOnes]

theorem formXYN_and_opMask (op : Nibble) (x y : Reg) (n : Nibble) :
    formXYN op x y n &&& 0xF000 = op ++ 0#4 ++ 0#4 ++ 0#4 := by
  have nibbles : (0xF000 : Word) = BitVec.allOnes 4 ++ 0#4 ++ 0#4 ++ 0#4 := rfl
  rw [formXYN, nibbles, BitVec.and_append, BitVec.and_append, BitVec.and_append, BitVec.and_allOnes, BitVec.and_zero,
    BitVec.and_zero, BitVec.and_zero]

/-- The number of an instruction's row in the opcode map, counted from 0 (30_encoding.md R48). -/
def rowIndex : Instr → Fin 23
  | .cls => 0
  | .ret => 1
  | .jp _ => 2
  | .call _ => 3
  | .seImm _ _ => 4
  | .sneImm _ _ => 5
  | .seReg _ _ => 6
  | .ldImm _ _ => 7
  | .addImm _ _ => 8
  | .ldReg _ _ => 9
  | .orReg _ _ => 10
  | .andReg _ _ => 11
  | .xorReg _ _ => 12
  | .addReg _ _ => 13
  | .subReg _ _ => 14
  | .shr _ _ => 15
  | .subn _ _ => 16
  | .shl _ _ => 17
  | .sneReg _ _ => 18
  | .ldI _ => 19
  | .jpV0 _ => 20
  | .rnd _ _ => 21
  | .drw _ _ _ => 22

/-- The row of an instruction in the opcode map. -/
def rowOf (i : Instr) : OpcodeRow := opcodeMap.get (rowIndex i)

theorem rowOf_mem (i : Instr) : rowOf i ∈ opcodeMap := opcodeMap.get_mem (rowIndex i)

theorem encode_matches_row (i : Instr) : encode i &&& (rowOf i).mask = (rowOf i).pattern := by
  cases i with
  | cls | ret => rfl
  | jp nnn | call nnn | ldI nnn | jpV0 nnn => exact formNNN_and_mask _ nnn
  | seImm x kk | sneImm x kk | ldImm x kk | addImm x kk | rnd x kk => exact formXKK_and_mask _ x kk
  | drw x y n => exact formXYN_and_opMask _ x y _
  | seReg x y | sneReg x y | ldReg x y | orReg x y | andReg x y | xorReg x y | addReg x y | subReg x y | shr x y
  | subn x y | shl x y => exact formXYN_and_mask _ x y _

theorem decode_unknown_of_no_match {w : Word} (h : ∀ r ∈ opcodeMap, w &&& r.mask ≠ r.pattern) :
    decode w = .unknown w := by
  cases hd : decode w with
  | instr i =>
    have hw : encode i = w := encode_of_decode hd
    exact absurd (hw ▸ encode_matches_row i) (h _ (rowOf_mem i))
  | unknown u => rw [eq_of_decode_unknown hd]

/-- Two rows exclude each other when their patterns differ on a bit that both masks keep. -/
theorem OpcodeRow.disjoint {r r' : OpcodeRow} (h : r.pattern &&& r'.mask ≠ r'.pattern &&& r.mask) (w : Word) :
    ¬ (w &&& r.mask = r.pattern ∧ w &&& r'.mask = r'.pattern) := by
  rintro ⟨hr, hr'⟩
  rw [← hr, ← hr'] at h
  exact h (BitVec.and_assoc .. |>.trans (by rw [BitVec.and_comm r.mask, BitVec.and_assoc]))

theorem opcodeMap_patterns_differ :
    opcodeMap.Pairwise fun r r' => r.pattern &&& r'.mask ≠ r'.pattern &&& r.mask := by
  decide

/-- Settles O4: matched words by `decode_of_matches`, the rest by `decode_unknown_of_no_match`, and the rows exclude
each other pair by pair. -/
theorem decoderAgreesWithTheOpcodeMap : Obligations.DecoderAgreesWithTheOpcodeMap :=
  ⟨fun _ => ⟨fun _ => decode_of_matches, decode_unknown_of_no_match⟩, rfl,
    opcodeMap_patterns_differ.imp OpcodeRow.disjoint⟩

/-! ## The UNKNOWN words -/

theorem decodeSystem_eq_unknown (w : Word) :
    decodeSystem w = .unknown w ↔ w.toNat ≠ 0x00E0 ∧ w.toNat ≠ 0x00EE := by
  have toNat_eq (k : Word) : w = k ↔ w.toNat = k.toNat := BitVec.toNat_inj.symm
  simp only [decodeSystem, toNat_eq]
  split
  · simp_all
  · split <;> simp_all

theorem decodeAlu_eq_unknown (w : Word) (x y : Reg) (sub : Nibble) :
    decodeAlu w x y sub = .unknown w ↔ 8 ≤ sub.toNat ∧ sub.toNat ≠ 0xE := by
  unfold decodeAlu
  split
  case h_10 => simp only [imp_false, true_iff] at *; bv_omega
  all_goals simp

theorem zeroNibbleForm_eq_unknown (w : Word) (n : Nibble) (i : Instr) :
    (if n = 0x0#4 then Decoded.instr i else .unknown w) = .unknown w ↔ n.toNat ≠ 0 := by
  split
  · simp_all
  · simp only [true_iff]; bv_omega

/-- Settles O5: in each group of R48 the first nibble is known, and the group's own lemma says what is left over. -/
theorem unknownWordsAreExactlyTheUnassignedOnes : Obligations.UnknownWordsAreExactlyTheUnassignedOnes := by
  intro w
  have hop := fields_op_toNat w
  have hn := fields_n_toNat w
  unfold decode
  dsimp only
  split <;> rename_i h
  case h_15 => simp only [imp_false, true_iff] at *; bv_omega
  all_goals simp only [h, BitVec.toNat_ofNat] at hop
  case h_1 => rw [decodeSystem_eq_unknown]; omega
  case h_9 => rw [decodeAlu_eq_unknown]; omega
  case h_6 | h_10 => rw [zeroNibbleForm_eq_unknown]; omega
  all_goals simp only [reduceCtorEq, false_iff]; omega

/-- Settles O6: eight closed words, each run through the decoder. -/
theorem sampleWordsDecode : Obligations.SampleWordsDecode := by
  unfold Obligations.SampleWordsDecode
  decide

end Sys2Proof
end

section
/-! PROOFS. What a state update leaves unchanged, and with it everything an instruction can do: it completes with the pc
of the update table and a known footprint, or it raises one known error and does nothing else. -/

namespace Sys2Proof.Machine

/-! ## Frames compose -/

theorem Frame.mono {rs rs' : List Reg} {ps ps' : List Part} {s t : State} (h : Frame rs ps s t)
    (hr : rs ⊆ rs') (hp : ps ⊆ ps') : Frame rs' ps' s t where
  regs r hn := h.regs r fun m => hn (hr m)
  memory := h.memory
  cfg := h.cfg
  index hn := h.index fun m => hn (hp m)
  pc hn := h.pc fun m => hn (hp m)
  stack hn := h.stack fun m => hn (hp m)
  display hn := h.display fun m => hn (hp m)
  timers hn := h.timers fun m => hn (hp m)
  errors hn := h.errors fun m => hn (hp m)
  unkSeen hn := h.unkSeen fun m => hn (hp m)
  random hn := h.random fun m => hn (hp m)

theorem Frame.trans {rs rs' : List Reg} {ps ps' : List Part} {s t u : State} (h : Frame rs ps s t)
    (h' : Frame rs' ps' t u) : Frame (rs ++ rs') (ps ++ ps') s u := by
  replace h := h.mono (List.subset_append_left rs rs') (List.subset_append_left ps ps')
  replace h' := h'.mono (List.subset_append_right rs rs') (List.subset_append_right ps ps')
  exact
    { regs := fun r hr => (h'.regs r hr).trans (h.regs r hr)
      memory := fun a => (h'.memory a).trans (h.memory a)
      cfg := h'.cfg.trans h.cfg
      index := fun hp => (h'.index hp).trans (h.index hp)
      pc := fun hp => (h'.pc hp).trans (h.pc hp)
      stack := fun hp => (h'.stack hp).imp (·.trans (h.stack hp).1) fun e k => (e k).trans ((h.stack hp).2 k)
      display := fun hp =>
        (h'.display hp).imp (fun e p => (e p).trans ((h.display hp).1 p)) (·.trans (h.display hp).2)
      timers := fun hp => (h'.timers hp).imp (·.trans (h.timers hp).1) (·.trans (h.timers hp).2)
      errors := fun hp => (h'.errors hp).imp (·.trans (h.errors hp).1)
        fun e => e.imp (·.trans (h.errors hp).2.1) (·.trans (h.errors hp).2.2)
      unkSeen := fun hp => (h'.unkSeen hp).trans (h.unkSeen hp)
      random := fun hp => (h'.random hp).imp (·.trans (h.random hp).1) (·.trans (h.random hp).2) }

/-- The registers and parts may be listed in any order. -/
theorem Frame.reorder {rs : List Reg} {ps ps' : List Part} {s t : State} (h : Frame rs ps s t)
    (hp : ps ⊆ ps' := by decide) : Frame rs ps' s t :=
  h.mono (List.Subset.refl rs) hp

/-! ## The frame of each update -/

theorem State.frame_refl (s : State) : Frame [] [] s s := by constructor <;> simp

theorem State.frame_setReg (s : State) (x : Reg) (b : Byte) : Frame [x] [] s (s.setReg x b) := by
  constructor <;> simp +contextual

theorem State.frame_setIndex (s : State) (w : Word) : Frame [] [.index] s (s.setIndex w) := by constructor <;> simp

theorem State.frame_setPc (s : State) (w : Word) : Frame [] [.pc] s (s.setPc w) := by constructor <;> simp

theorem State.frame_advance (s : State) : Frame [] [.pc] s s.advance := s.frame_setPc _

theorem State.frame_skipIf (s : State) (c : Bool) : Frame [] [.pc] s (s.skipIf c) := s.frame_setPc _

theorem State.frame_markUnknown (s : State) : Frame [] [.unkSeen] s s.markUnknown := by constructor <;> simp

theorem State.frame_showDisplay (s : State) (d : Display) : Frame [] [.display] s (s.showDisplay d) := by
  constructor <;> simp

theorem State.frame_tick (s : State) : Frame [] [.timers] s s.tick := by constructor <;> simp

theorem State.frame_consumeRnd (s : State) : Frame [] [.random] s s.consumeRnd := by constructor <;> simp

theorem State.frame_raise (s : State) (e : FatalError) : Frame [] [.errors] s (s.raise e) := by constructor <;> simp

/-- The state with another stack. -/
def State.withStack (s : State) (stack : Vector Word 16) (sp : Fin 17) : State := { s with stack := stack, sp := sp }

theorem State.frame_withStack (s : State) (stack : Vector Word 16) (sp : Fin 17) :
    Frame [] [.stack] s (s.withStack stack sp) := by
  constructor <;> simp [State.withStack, State.reg]

theorem State.frame_withStack_setPc (s : State) (stack : Vector Word 16) (sp : Fin 17) (w : Word) :
    Frame [] [.pc, .stack] s ((s.withStack stack sp).setPc w) :=
  ((s.frame_withStack stack sp).trans (State.frame_setPc _ w)).reorder

theorem State.frame_setReg_advance (s : State) (x : Reg) (b : Byte) : Frame [x] [.pc] s (s.setReg x b).advance :=
  (s.frame_setReg x b).trans (State.frame_advance _)

theorem State.frame_setRegFlag_advance (s : State) (x : Reg) (b : Byte) (c : Bool) :
    Frame [x, VF] [.pc] s (s.setRegFlag x b c).advance :=
  (s.frame_setReg x b).trans (State.frame_setReg_advance _ VF _)

theorem State.frame_rnd (s : State) (x : Reg) (b : Byte) :
    Frame [x] [.pc, .random] s (s.consumeRnd.setReg x b).advance :=
  (s.frame_consumeRnd.trans (State.frame_setReg_advance _ x b)).reorder

theorem State.frame_drawSprite (s : State) (x y : Reg) (rows : List Byte) :
    Frame [VF] [.display, .pc] s (s.drawSprite x y rows) :=
  (s.frame_showDisplay _).trans (State.frame_setReg_advance _ VF _)

/-! ## CALL, RET and DRW, which may raise -/

theorem zext16_toNat (nnn : Addr) : (zext16 nnn).toNat = nnn.toNat := by
  rw [zext16, BitVec.toNat_setWidth_of_le (by decide)]

theorem zext16_eq_ofNat (nnn : Addr) : zext16 nnn = BitVec.ofNat 16 nnn.toNat := BitVec.eq_of_toNat_eq (by
  rw [zext16_toNat, BitVec.toNat_ofNat, Nat.mod_eq_of_lt (nnn.isLt.trans (by decide))])

theorem State.offsetTarget_toNat (s : State) (nnn : Addr) :
    (s.offsetTarget nnn).toNat = nnn.toNat + (s.reg 0).toNat := by
  have := nnn.isLt
  have := (s.reg 0).isLt
  rw [State.offsetTarget, BitVec.toNat_add, zext16_toNat, BitVec.toNat_setWidth_of_le (by decide)]
  omega

theorem State.offsetTarget_eq_ofNat (s : State) (nnn : Addr) :
    s.offsetTarget nnn = BitVec.ofNat 16 (nnn.toNat + (s.reg 0).toNat) := BitVec.eq_of_toNat_eq (by
  have := nnn.isLt
  have := (s.reg 0).isLt
  rw [State.offsetTarget_toNat, BitVec.toNat_ofNat]
  omega)

theorem exec_call_eq {s : State} (nnn : Addr) (h : s.sp.val < 16) :
    exec (.call nnn) s =
      .next ((s.withStack (s.stack.set s.sp.val (s.pc + 2) h) ⟨s.sp.val + 1, by omega⟩).setPc (zext16 nnn)) := by
  obtain ⟨_, hpush⟩ | ⟨hfull, -⟩ := s.push_cases (s.pc + 2)
  · rw [exec, execCall, hpush]; rfl
  · omega

/-- CALL with room on the stack (40_control_flow.md R60). -/
theorem exec_call_of_room {s : State} (nnn : Addr) (h : s.sp.val < 16) :
    ∃ t, exec (.call nnn) s = .next t ∧ t.pc = zext16 nnn ∧ t.sp.val = s.sp.val + 1 ∧
      (∀ k : Fin 16, t.stack[k] = if k.val = s.sp.val then s.pc + 2 else s.stack[k]) ∧ Frame [] [.pc, .stack] s t := by
  refine ⟨_, exec_call_eq nnn h, rfl, rfl, fun k => ?_, s.frame_withStack_setPc _ _ _⟩
  simp [State.withStack, Vector.getElem_set, eq_comm]

theorem exec_call_of_full {s : State} (nnn : Addr) (h : s.sp.val = 16) :
    exec (.call nnn) s = .next (s.raise .stackOverflow) := by
  obtain ⟨_, -⟩ | ⟨-, hpush⟩ := s.push_cases (s.pc + 2)
  · omega
  · rw [exec, execCall, hpush]; rfl

theorem exec_ret_eq {s : State} {k : Fin 16} (h : s.sp.val = k.val + 1) :
    exec .ret s = .next ((s.withStack s.stack (k.castLE (by decide))).setPc s.stack[k]) := by
  obtain ⟨_, hpop⟩ | ⟨hempty, -⟩ := s.pop_cases
  · rw [exec, execRet, hpop]
    simp [Except.map, State.withStack, h, Fin.castLE]
  · omega

/-- RET with an entry on the stack (40_control_flow.md R58). -/
theorem exec_ret_of_entry {s : State} {k : Fin 16} (h : s.sp.val = k.val + 1) :
    ∃ t, exec .ret s = .next t ∧ t.pc = s.stack[k] ∧ t.sp.val = k.val ∧ (∀ j : Fin 16, t.stack[j] = s.stack[j]) ∧
      Frame [] [.pc, .stack] s t :=
  ⟨_, exec_ret_eq h, rfl, rfl, fun _ => rfl, s.frame_withStack_setPc _ _ _⟩

/-- A stack that is not empty has a top entry. -/
theorem State.exists_top {s : State} (h : 0 < s.sp.val) : ∃ k : Fin 16, s.sp.val = k.val + 1 :=
  ⟨⟨s.sp.val - 1, by omega⟩, by simp; omega⟩

theorem exec_ret_of_empty {s : State} (h : s.sp.val = 0) : exec .ret s = .next (s.raise .stackUnderflow) := by
  obtain ⟨_, -⟩ | ⟨-, hpop⟩ := s.pop_cases
  · omega
  · rw [exec, execRet, hpop]; rfl

/-- The sprite of DRW: the `n` bytes of memory from `I` on (42_display.md R86). -/
def State.sprite (s : State) (n : Nat) : List Byte := (List.range n).map fun k => s.mem.read (s.i.toNat + k)

theorem exec_drw_of_inside {s : State} (x y : Reg) {n : Fin 16} (h : n.val = 0 ∨ s.i.toNat + n.val ≤ 0x1000) :
    exec (.drw x y n) s = .next (s.drawSprite x y (s.sprite n.val)) := by
  obtain ⟨-, hread⟩ | ⟨_, -⟩ := s.memRead_cases s.i.toNat n.val
  · rw [exec, execDrw, State.spriteRows, hread]; rfl
  · omega

theorem exec_drw_of_beyond {s : State} (x y : Reg) {n : Fin 16} (h0 : n.val ≠ 0) (h : 0x1000 < s.i.toNat + n.val) :
    exec (.drw x y n) s = .next (s.raise (.outOfBoundsAccess (BitVec.ofNat 16 (max s.i.toNat 0x1000)))) := by
  obtain ⟨_, -⟩ | ⟨-, hread⟩ := s.memRead_cases s.i.toNat n.val
  · omega
  · rw [exec, execDrw, State.spriteRows, hread]; rfl

/-! ## The footprint of a completed instruction -/

/-- The general registers an instruction writes (10_state.md R12, R13): its destination, and VF if it is flagged. -/
def writtenRegs (i : Instr) : List Reg := (destination i).toList ++ if flagged i then [VF] else []

/-- The parts of the state beside the registers that a completed instruction writes. -/
def writtenParts : Instr → List Part
  | .cls | .drw _ _ _ => [.display, .pc]
  | .ret | .call _ => [.pc, .stack]
  | .ldI _ => [.index, .pc]
  | .rnd _ _ => [.pc, .random]
  | .jp _ | .seImm _ _ | .sneImm _ _ | .seReg _ _ | .ldImm _ _ | .addImm _ _ | .ldReg _ _ | .orReg _ _ | .andReg _ _
  | .xorReg _ _ | .addReg _ _ | .subReg _ _ | .shr _ _ | .subn _ _ | .shl _ _ | .sneReg _ _ | .jpV0 _ => [.pc]

theorem pcAfter_ret {s : State} {k : Fin 16} (h : s.sp.val = k.val + 1) : pcAfter .ret s = s.stack[k] := by
  simp [pcAfter, h]

/-- An instruction that raises nothing completes, with the pc of the update table (10_state.md R15) and nothing changed
outside its footprint. -/
theorem exec_completes {i : Instr} {s : State} (h : CanComplete i s) :
    ∃ t, exec i s = .next t ∧ t.pc = pcAfter i s ∧ Frame (writtenRegs i) (writtenParts i) s t := by
  cases i with
  | cls => exact ⟨_, rfl, rfl, (s.frame_showDisplay _).trans (State.frame_advance _)⟩
  | ret =>
    obtain ⟨k, hk⟩ := State.exists_top h
    obtain ⟨t, ht, hpc, -, -, hf⟩ := exec_ret_of_entry hk
    exact ⟨t, ht, hpc.trans (pcAfter_ret hk).symm, hf⟩
  | call nnn =>
    obtain ⟨t, ht, hpc, -, -, hf⟩ := exec_call_of_room nnn h
    exact ⟨t, ht, hpc.trans (zext16_eq_ofNat nnn), hf⟩
  | drw x y n => exact ⟨_, exec_drw_of_inside x y h, rfl, s.frame_drawSprite x y _⟩
  | jp nnn => exact ⟨_, rfl, zext16_eq_ofNat nnn, s.frame_setPc _⟩
  | jpV0 nnn => exact ⟨_, rfl, s.offsetTarget_eq_ofNat nnn, s.frame_setPc _⟩
  | seImm | sneImm | seReg | sneReg => exact ⟨_, rfl, by simp [pcAfter], s.frame_skipIf _⟩
  | ldI nnn => exact ⟨_, rfl, rfl, (s.frame_setIndex _).trans (State.frame_advance _)⟩
  | rnd x kk => exact ⟨_, rfl, rfl, s.frame_rnd x _⟩
  | ldImm x | addImm x | ldReg x | orReg x | andReg x | xorReg x => exact ⟨_, rfl, rfl, s.frame_setReg_advance x _⟩
  | addReg x | subReg x | shr x | subn x | shl x => exact ⟨_, rfl, rfl, s.frame_setRegFlag_advance x _ _⟩

theorem exec_pc {i : Instr} {s t : State} (h : CanComplete i s) (hx : exec i s = .next t) : t.pc = pcAfter i s := by
  obtain ⟨u, hu, hpc, -⟩ := exec_completes h
  cases hx.symm.trans hu
  exact hpc

theorem exec_frame {i : Instr} {s t : State} (h : CanComplete i s) (hx : exec i s = .next t) :
    Frame (writtenRegs i) (writtenParts i) s t := by
  obtain ⟨u, hu, -, hf⟩ := exec_completes h
  cases hx.symm.trans hu
  exact hf

theorem errors_not_mem_writtenParts (i : Instr) : Part.errors ∉ writtenParts i := by cases i <;> simp [writtenParts]

theorem timers_not_mem_writtenParts (i : Instr) : Part.timers ∉ writtenParts i := by cases i <;> simp [writtenParts]

theorem unkSeen_not_mem_writtenParts (i : Instr) : Part.unkSeen ∉ writtenParts i := by cases i <;> simp [writtenParts]

theorem index_mem_writtenParts {i : Instr} : Part.index ∈ writtenParts i ↔ ∃ nnn, i = .ldI nnn := by
  cases i <;> simp [writtenParts]

theorem stack_mem_writtenParts {i : Instr} : Part.stack ∈ writtenParts i ↔ i = .ret ∨ ∃ nnn, i = .call nnn := by
  cases i <;> simp [writtenParts]

theorem display_mem_writtenParts {i : Instr} : Part.display ∈ writtenParts i ↔ i = .cls ∨ ∃ x y n, i = .drw x y n := by
  cases i <;> simp [writtenParts]

theorem random_mem_writtenParts {i : Instr} : Part.random ∈ writtenParts i ↔ ∃ x kk, i = .rnd x kk := by
  cases i <;> simp [writtenParts]

theorem mem_writtenRegs {i : Instr} {r : Reg} :
    r ∈ writtenRegs i ↔ destination i = some r ∨ flagged i = true ∧ r = VF := by
  simp [writtenRegs]

/-- Settles O31: the completed instruction's pc is the table's, and no instruction's footprint holds the error
registers. -/
theorem everyInstructionCompletesWhereItCan : Obligations.EveryInstructionCompletesWhereItCan := by
  intro i s h
  obtain ⟨t, ht, hpc, hf⟩ := exec_completes h
  obtain ⟨hhalted, herr, -⟩ := hf.errors (errors_not_mem_writtenParts i)
  exact ⟨t, ht, hhalted, herr, hpc⟩

/-! ## The instruction that raises -/

/-- The error an instruction raises where it cannot complete (60_exceptions.md R109); only CALL, RET and DRW ever
cannot. -/
def raisedBy (i : Instr) (s : State) : FatalError :=
  match i with
  | .call _ => .stackOverflow
  | .ret => .stackUnderflow
  | _ => .outOfBoundsAccess (BitVec.ofNat 16 (max s.i.toNat 0x1000))

theorem exec_raises {i : Instr} {s : State} (h : ¬ CanComplete i s) : exec i s = .next (s.raise (raisedBy i s)) := by
  cases i with
  | call nnn => exact exec_call_of_full nnn (by simp only [CanComplete] at h; omega)
  | ret => exact exec_ret_of_empty (by simp only [CanComplete] at h; omega)
  | drw x y n =>
    simp only [CanComplete, not_or, Nat.not_le] at h
    exact exec_drw_of_beyond x y h.1 h.2
  | cls | jp | seImm | sneImm | seReg | ldImm | addImm | ldReg | orReg | andReg | xorReg | addReg | subReg | shr
  | subn | shl | sneReg | ldI | jpV0 | rnd => exact absurd trivial h

end Sys2Proof.Machine
end

section
/-! PROOFS. The loads, arithmetic, logic, shifts, the random source (spec 41_data_alu.md) and the control transfers
(40_control_flow.md). Every frame is the one of Frame's layer; what is left is the value written. -/

namespace Sys2Proof.Machine

/-! ## Loads and operations without a flag -/

/-- Settles O7: the register written is read back. -/
theorem loadImmediateWritesTheRegister : Obligations.LoadImmediateWritesTheRegister := fun x _ =>
  ⟨decode_ofNat_formXKK rfl rfl, fun s => ⟨_, rfl, by simp, rfl, s.frame_setReg_advance x _⟩⟩

/-- Settles O8: the sum of two bytes is the sum of their numbers mod 256. -/
theorem addImmediateWrapsWithoutFlag : Obligations.AddImmediateWrapsWithoutFlag := fun x _ =>
  ⟨decode_ofNat_formXKK rfl rfl, fun s => ⟨_, rfl, by simp, rfl, s.frame_setReg_advance x _⟩⟩

/-- Settles O9: the register written is read back. -/
theorem registerCopyWritesTheRegister : Obligations.RegisterCopyWritesTheRegister := fun x _ =>
  ⟨decode_ofNat_formXYN rfl rfl, fun s => ⟨_, rfl, by simp, rfl, s.frame_setReg_advance x _⟩⟩

/-- Settles O10: each operation of bit vectors acts on every bit alike. -/
theorem bitwiseOperationsActBitByBitWithoutFlag : Obligations.BitwiseOperationsActBitByBitWithoutFlag := by
  refine fun x y => ⟨decode_ofNat_formXYN rfl rfl, decode_ofNat_formXYN rfl rfl, decode_ofNat_formXYN rfl rfl,
    fun s => ⟨?or, ?and, ?xor⟩⟩
  case or => exact ⟨_, rfl, rfl, s.frame_setReg_advance x _, fun k _ => by simp⟩
  case and => exact ⟨_, rfl, rfl, s.frame_setReg_advance x _, fun k _ => by simp⟩
  case xor => exact ⟨_, rfl, rfl, s.frame_setReg_advance x _, fun k _ => by simp⟩

/-- Settles O14: `zext16` keeps the address as a number. -/
theorem loadIndexWritesTheIndexRegister : Obligations.LoadIndexWritesTheIndexRegister := fun nnn =>
  ⟨decode_ofNat_formNNN rfl rfl, fun s =>
    ⟨_, rfl, zext16_toNat nnn, rfl, (s.frame_setIndex _).trans (State.frame_advance _)⟩⟩

/-- Settles O15: the byte sampled is the announced one where there is one. -/
theorem randomAndsOneSampleWithTheImmediate : Obligations.RandomAndsOneSampleWithTheImmediate := by
  refine fun x kk s => ⟨fun r rest h => ?announced, fun h => ?free⟩
  case announced =>
    exact ⟨_, rfl, by simp [State.rndByte_announced h], by simp [h], by simp [h], rfl, s.frame_rnd x _⟩
  case free => exact ⟨_, s.rndByte, rfl, by simp, by simp [h], by simp [h], rfl, s.frame_rnd x _⟩

/-! ## The flagged operations (41_data_alu.md R69) -/

theorem flagByte_toNat (c : Bool) : (flagByte c).toNat = c.toNat := by cases c <;> rfl

theorem State.setRegFlag_reg_destination (s : State) {x : Reg} (hx : x ≠ VF) (b : Byte) (c : Bool) :
    (s.setRegFlag x b c).reg x = b := by
  simp [hx]

theorem State.setRegFlag_reg_flag (s : State) (x : Reg) (b : Byte) (c : Bool) :
    ((s.setRegFlag x b c).reg VF) = flagByte c := by
  simp

theorem carryOut_iff (a b : Byte) : (carryOut a b = true) ↔ 255 < a.toNat + b.toNat := decide_eq_true_iff

theorem noBorrow_iff (a b : Byte) : (noBorrow a b = true) ↔ b.toNat ≤ a.toNat := decide_eq_true_iff

theorem State.shiftSource_eq (s : State) (x y : Reg) :
    s.shiftSource x y = if s.cfg.shiftSrc = .vy then s.reg y else s.reg x := by
  cases h : s.cfg.shiftSrc <;> simp [State.shiftSource, h]

/-- A flagged operation: the result in `V[x]` unless the flag replaces it, the flag in VF, and its frame. -/
theorem flagged_result {i : Instr} {s : State} {x : Reg} {b : Byte} {c : Bool} {result flag : Nat}
    (hexec : exec i s = .next (s.setRegFlag x b c).advance) (hresult : b.toNat = result) (hflag : c.toNat = flag) :
    ∃ t, exec i s = .next t ∧ (x ≠ 0xF → (t.reg x).toNat = result) ∧ (t.reg 0xF).toNat = flag ∧ t.pc = s.pc + 2 ∧
      Frame [x, 0xF] [.pc] s t := by
  refine ⟨_, hexec, fun hx => ?_, ?_, rfl, s.frame_setRegFlag_advance x b c⟩
  · rw [State.advance_reg, s.setRegFlag_reg_destination hx, hresult]
  · rw [State.advance_reg, ← VF, s.setRegFlag_reg_flag, flagByte_toNat, hflag]

theorem carryOut_toNat (a b : Byte) : (carryOut a b).toNat = if 255 < a.toNat + b.toNat then 1 else 0 := by
  simp [carryOut, Bool.toNat, Bool.cond_decide]

/-- Settles O11: the flagged operation with result the sum and flag `carryOut`. -/
theorem addRegistersSetsTheCarry : Obligations.AddRegistersSetsTheCarry := fun _ _ =>
  ⟨decode_ofNat_formXYN rfl rfl, fun _ => flagged_result rfl (BitVec.toNat_add _ _) (carryOut_toNat _ _)⟩

theorem sub_toNat (a b : Byte) : (a - b).toNat = (a.toNat + 256 - b.toNat) % 256 := by bv_omega

theorem noBorrow_toNat (a b : Byte) : (noBorrow a b).toNat = if a.toNat ≥ b.toNat then 1 else 0 := by
  simp [noBorrow, Bool.toNat, Bool.cond_decide]

/-- Settles O12: the flagged operations with result the difference and flag `noBorrow`. -/
theorem subtractionsSetNoBorrow : Obligations.SubtractionsSetNoBorrow := fun _ _ =>
  ⟨decode_ofNat_formXYN rfl rfl, decode_ofNat_formXYN rfl rfl, fun _ =>
    ⟨flagged_result rfl (sub_toNat _ _) (noBorrow_toNat _ _),
      flagged_result rfl (sub_toNat _ _) (noBorrow_toNat _ _)⟩⟩

theorem shiftedOutRight_toNat (b : Byte) : (shiftedOutRight b).toNat = b.toNat % 2 := by
  rw [shiftedOutRight, BitVec.getLsbD, Nat.toNat_testBit, Nat.pow_zero, Nat.div_one]

theorem shiftedOutLeft_toNat (b : Byte) : (shiftedOutLeft b).toNat = b.toNat / 128 := by
  have := b.isLt
  rw [shiftedOutLeft, BitVec.getLsbD, Nat.toNat_testBit]
  omega

/-- Settles O13: the source by SHIFT_SRC is `State.shiftSource`. -/
theorem shiftsMoveTheSourceByOne : Obligations.ShiftsMoveTheSourceByOne := by
  refine fun x y => ⟨decode_ofNat_formXYN rfl rfl, decode_ofNat_formXYN rfl rfl, fun s src hsrc => ?_⟩
  rw [← s.shiftSource_eq x y] at hsrc
  subst hsrc
  exact ⟨flagged_result rfl (by simp [Nat.shiftRight_eq_div_pow]) (shiftedOutRight_toNat _),
    flagged_result rfl (by simp [Nat.shiftLeft_eq]) (shiftedOutLeft_toNat _)⟩

/-! ## Jumps and skips -/

/-- Settles O16: `zext16` keeps the address as a number. -/
theorem jumpSetsPc : Obligations.JumpSetsPc := fun nnn =>
  ⟨decode_ofNat_formNNN rfl rfl, fun s => ⟨_, rfl, zext16_toNat nnn, s.frame_setPc _⟩⟩

/-- Settles O17: the sum of a 12-bit and an 8-bit number does not wrap. -/
theorem jumpWithOffsetAddsRegisterZero : Obligations.JumpWithOffsetAddsRegisterZero := fun nnn =>
  ⟨decode_ofNat_formNNN rfl rfl, fun s => ⟨_, rfl, s.offsetTarget_toNat nnn, s.frame_setPc _⟩⟩

/-- Settles O20: equal bytes are equal numbers. -/
theorem immediateSkipsCompareTheWholeByte : Obligations.ImmediateSkipsCompareTheWholeByte := by
  refine fun x kk => ⟨decode_ofNat_formXKK rfl rfl, decode_ofNat_formXKK rfl rfl, fun s => ⟨?se, ?sne⟩⟩
  case se => exact ⟨_, rfl, s.frame_skipIf _, by simp [BitVec.toNat_inj]⟩
  case sne => exact ⟨_, rfl, s.frame_skipIf _, by simp [BitVec.toNat_inj]⟩

/-- Settles O21: equal bytes are equal numbers. -/
theorem registerSkipsCompareTheTwoRegisters : Obligations.RegisterSkipsCompareTheTwoRegisters := by
  refine fun x y => ⟨decode_ofNat_formXYN rfl rfl, decode_ofNat_formXYN rfl rfl, fun s => ⟨?se, ?sne⟩⟩
  case se => exact ⟨_, rfl, s.frame_skipIf _, by simp [BitVec.toNat_inj]⟩
  case sne => exact ⟨_, rfl, s.frame_skipIf _, by simp [BitVec.toNat_inj]⟩

/-! ## The stack -/

/-- Settles O18: the two cases of CALL, with room and with a full stack. -/
theorem callPushesTheReturnAddressOrOverflows : Obligations.CallPushesTheReturnAddressOrOverflows := by
  refine fun nnn => ⟨decode_ofNat_formNNN rfl rfl, fun s => ⟨fun hroom => ?room, fun hfull => ?full⟩⟩
  case room =>
    obtain ⟨t, ht, hpc, rest⟩ := exec_call_of_room nnn hroom
    exact ⟨t, ht, by rw [hpc, zext16_toNat], rest⟩
  case full => exact ⟨_, exec_call_of_full nnn hfull, rfl, rfl, rfl, s.frame_raise _⟩

/-- Settles O19: the two cases of RET, with an entry and with none. -/
theorem returnPopsIntoPcOrUnderflows : Obligations.ReturnPopsIntoPcOrUnderflows :=
  ⟨rfl, fun s => ⟨fun _ => exec_ret_of_entry, fun h => ⟨_, exec_ret_of_empty h, rfl, rfl, rfl, s.frame_raise _⟩⟩⟩

/-- Settles O22: the entry that RET pops is the one the CALL wrote. -/
theorem returnResumesAfterItsCall : Obligations.ReturnResumesAfterItsCall := by
  intro s t t' nnn hroom hcall hstack hsp
  obtain ⟨u, hu, -, husp, hustack, -⟩ := exec_call_of_room nnn hroom
  cases hcall.symm.trans hu
  have top : t'.sp.val = s.sp.val + 1 := by rw [hsp, husp]
  obtain ⟨v, hv, hvpc, hvsp, -⟩ := exec_ret_of_entry (k := ⟨s.sp.val, hroom⟩) top
  refine ⟨v, hv, ?_, Fin.ext hvsp⟩
  rw [hvpc, hstack, hustack, if_pos rfl]

/-- A chain of calls: `call` is any reading of CALL that answers its next state where that is not halted. -/
theorem foldlM_call {call : State → Addr → Option State}
    (hcall : ∀ u nnn v, exec (.call nnn) u = .next v → v.halted = false → call u nnn = some v)
    (targets : List Addr) (s : State) (hrun : s.halted = false) (hroom : targets.length + s.sp.val ≤ 16) :
    ∃ t, targets.foldlM call s = some t ∧ t.sp.val = targets.length + s.sp.val := by
  induction targets generalizing s with
  | nil => exact ⟨s, rfl, by simp⟩
  | cons nnn targets ih =>
    rw [List.length_cons] at hroom
    obtain ⟨u, hu, -, husp, -, hframe⟩ := exec_call_of_room nnn (s := s) (by omega)
    have urun : u.halted = false := (hframe.errors (by decide)).1.trans hrun
    obtain ⟨t, ht, htsp⟩ := ih u urun (by omega)
    refine ⟨t, ?_, by rw [List.length_cons]; omega⟩
    rw [List.foldlM_cons, hcall s nnn u hu urun]
    exact ht

/-- A chain of calls that fills the stack, and the call after it. -/
theorem foldlM_call_fills_stack {call : State → Addr → Option State}
    (hcall : ∀ u nnn v, exec (.call nnn) u = .next v → v.halted = false → call u nnn = some v)
    {targets : List Addr} {s : State} (hrun : s.halted = false) (hlen : targets.length + s.sp.val = 16) :
    ∃ t, targets.foldlM call s = some t ∧ t.sp.val = 16 ∧ ∀ nnn, ∃ u, exec (.call nnn) t = .next u ∧
      u.halted = true ∧ u.err = .stackOverflow ∧ Frame [] [.errors] t u := by
  obtain ⟨t, ht, htsp⟩ := foldlM_call hcall targets s hrun hlen.le
  have full : t.sp.val = 16 := htsp.trans hlen
  exact ⟨t, ht, full, fun nnn => ⟨_, exec_call_of_full nnn full, rfl, rfl, t.frame_raise _⟩⟩

/-- Settles O23: its reading of CALL answers the next state where that is running. -/
theorem stackHoldsSixteenCalls : Obligations.StackHoldsSixteenCalls := fun _ _ hrun hlen =>
  foldlM_call_fills_stack (fun u nnn v hv hvrun => by simp only [hv, hvrun, if_true]) hrun hlen

end Sys2Proof.Machine
end

section
/-! PROOFS. The display instructions (spec 42_display.md): the draw loop inverts each placed pixel once, because no two
bits of a sprite land on one pixel. -/

namespace Sys2Proof.Machine

/-! ## CLS -/

/-- Settles O24: a blank display has no lit pixel. -/
theorem clearDisplayBlanksEveryPixel : Obligations.ClearDisplayBlanksEveryPixel :=
  ⟨rfl, fun s => ⟨_, rfl, Display.pixel_blank, rfl, rfl, (s.frame_showDisplay _).trans (State.frame_advance _)⟩⟩

/-! ## The draw loop -/

/-- Over a list without repetition each listed pixel is inverted once, and the flag gains the pixels that were 1. -/
theorem Display.foldl_plot {ps : List Pixel} (hps : ps.Nodup) (acc : Display × Bool) :
    (∀ q, (ps.foldl Display.plot acc).1.pixel q = if q ∈ ps then !acc.1.pixel q else acc.1.pixel q) ∧
    ((ps.foldl Display.plot acc).2 = true ↔ acc.2 = true ∨ ∃ p ∈ ps, acc.1.pixel p = true) := by
  induction ps generalizing acc with
  | nil => simp
  | cons p ps ih =>
    obtain ⟨hp, hps⟩ := List.nodup_cons.1 hps
    obtain ⟨hpixel, hflag⟩ := ih hps (acc.1.toggle p, acc.2 || acc.1.pixel p)
    have others (q : Pixel) (hq : q ∈ ps) : (acc.1.toggle p).pixel q = acc.1.pixel q := by
      rw [Display.pixel_toggle, if_neg (ne_of_mem_of_not_mem hq hp)]
    rw [Display.foldl_plot_cons]
    constructor
    · intro q
      rw [hpixel, Display.pixel_toggle]
      by_cases hq : q = p
      · simp [hq, hp]
      · simp [hq]
    · rw [hflag, Bool.or_eq_true, or_assoc, List.exists_mem_cons_iff]
      exact or_congr_right (or_congr_right (exists_congr fun q => and_congr_right fun hq => by rw [others q hq]))

theorem Display.pixel_draw (d : Display) {ps : List Pixel} (hps : ps.Nodup) (q : Pixel) :
    (d.draw ps).1.pixel q = if q ∈ ps then !d.pixel q else d.pixel q :=
  (Display.foldl_plot hps (d, false)).1 q

theorem Display.collision_draw (d : Display) {ps : List Pixel} (hps : ps.Nodup) :
    (d.draw ps).2 = true ↔ ∃ p ∈ ps, d.pixel p = true := by
  simpa [Display.draw] using (Display.foldl_plot hps (d, false)).2

/-! ## Where the bits of a sprite land -/

theorem place_eq_some {edge : DrawEdge} {cx cy : Nat} {p : Pixel} : place edge cx cy = some p ↔ Lands edge cx cy p := by
  obtain ⟨x, y⟩ := p
  cases edge with
  | wrap => simp [place, Lands, Fin.ext_iff, eq_comm]
  | clip =>
    simp only [place, Lands]
    split
    · simp [Fin.ext_iff, eq_comm]
    · simp; omega

/-- Eight neighbouring columns land apart, also where they wrap. -/
theorem Lands.col_inj {edge : DrawEdge} {cx cy col col' : Nat} {p : Pixel} (h : Lands edge (cx + col) cy p)
    (h' : Lands edge (cx + col') cy p) (hc : col < 8) (hc' : col' < 8) : col = col' := by
  cases edge <;> simp only [Lands] at h h' <;> omega

/-- Sixteen neighbouring rows land apart, also where they wrap. -/
theorem Lands.row_inj {edge : DrawEdge} {cx cx' cy row row' : Nat} {p : Pixel} (h : Lands edge cx (cy + row) p)
    (h' : Lands edge cx' (cy + row') p) (hr : row < 16) (hr' : row' < 16) : row = row' := by
  cases edge <;> simp only [Lands] at h h' <;> omega

theorem mem_rowPoints_lands {edge : DrawEdge} {cx cy : Nat} {row : Byte} {p : Pixel} :
    p ∈ rowPoints edge cx cy row ↔ ∃ col < 8, row.getLsbD (7 - col) = true ∧ Lands edge (cx + col) cy p := by
  simp only [mem_rowPoints, place_eq_some]

theorem rowPoints_nodup (edge : DrawEdge) (cx cy : Nat) (row : Byte) : (rowPoints edge cx cy row).Nodup := by
  rw [rowPoints, List.Nodup, List.pairwise_filterMap]
  refine List.nodup_range.imp_of_mem fun {col col'} hcol hcol' hne p hp p' hp' hpp' => hne ?_
  subst hpp'
  simp only [Option.ite_none_right_eq_some, place_eq_some] at hp hp'
  exact hp.2.col_inj hp'.2 (List.mem_range.1 hcol) (List.mem_range.1 hcol')

theorem spritePoints_nodup (edge : DrawEdge) (cx cy : Nat) (rows : List Byte) (h : rows.length ≤ 16) :
    (spritePoints edge cx cy rows).Nodup := by
  induction rows generalizing cy with
  | nil => exact List.nodup_nil
  | cons row rows ih =>
    rw [List.length_cons] at h
    refine List.Nodup.append (rowPoints_nodup edge cx cy row) (ih (cy + 1) (by omega)) fun p hp hp' => ?_
    obtain ⟨below, hbelow, hp'⟩ := (mem_spritePoints edge cx p rows (cy + 1)).1 hp'
    obtain ⟨col, -, -, hl⟩ := mem_rowPoints_lands.1 hp
    obtain ⟨col', -, -, hl'⟩ := mem_rowPoints_lands.1 hp'
    have := Lands.row_inj (row := 0) (row' := below + 1) hl (by rwa [Nat.add_assoc, Nat.add_comm 1] at hl') (by omega)
      (by omega)
    omega

/-- The pixels a DRW plots are those under a placed 1 bit (42_display.md R86 to R88). -/
theorem mem_spritePoints_sprite {s : State} {x y : Reg} {n : Nat} {p : Pixel} :
    p ∈ spritePoints s.cfg.drawEdge (s.reg x).toNat (s.reg y).toNat (s.sprite n) ↔ Covered s x y n p := by
  simp only [mem_spritePoints, mem_rowPoints_lands, Covered, State.sprite, List.length_map, List.length_range,
    List.getElem_map, List.getElem_range, exists_prop]
  constructor
  · rintro ⟨row, hrow, col, hcol, hbit, hl⟩
    exact ⟨row, col, hrow, hcol, hbit, hl⟩
  · rintro ⟨row, col, hrow, hcol, hbit, hl⟩
    exact ⟨row, hrow, col, hcol, hbit, hl⟩

/-! ## DRW -/

theorem State.sprite_length (s : State) (n : Nat) : (s.sprite n).length = n := by simp [State.sprite]

/-- The completed effect of DRW: the covered pixels inverted, and their collision with lit ones in VF. -/
theorem drawSprite_effect (s : State) (x y : Reg) {n : Nat} (hn : n < 16) :
    (∀ p, (s.drawSprite x y (s.sprite n)).disp.pixel p = true ↔ (s.disp.pixel p = true ↔ ¬ Covered s x y n p)) ∧
    ∃ c, (s.drawSprite x y (s.sprite n)).reg VF = flagByte c ∧
      (c = true ↔ ∃ p, s.disp.pixel p = true ∧ Covered s x y n p) := by
  have nodup := spritePoints_nodup s.cfg.drawEdge (s.reg x).toNat (s.reg y).toNat (s.sprite n)
    (by rw [s.sprite_length]; omega)
  refine ⟨fun p => ?_, (s.disp.draw _).2, by simp [State.drawSprite]; rfl, ?_⟩
  · simp only [State.drawSprite, State.advance_disp, State.setReg_disp, State.showDisplay_disp,
      Display.pixel_draw _ nodup]
    by_cases hc : Covered s x y n p <;> simp [mem_spritePoints_sprite, hc]
  · simp only [Display.collision_draw _ nodup, mem_spritePoints_sprite, and_comm]

theorem flagByte_eq_one (c : Bool) : flagByte c = 1 ↔ c = true := by cases c <;> decide

theorem flagByte_of {c : Bool} {P : Prop} (h : c = true ↔ P) : (P → flagByte c = 1) ∧ (¬ P → flagByte c = 0) := by
  rw [← h]
  cases c <;> simp [flagByte]

/-- Settles O25: `drawSprite_effect` on the state that DRW began with. -/
theorem drawInvertsThePlacedSpriteAndReportsCollision : Obligations.DrawInvertsThePlacedSpriteAndReportsCollision := by
  refine fun x y n => ⟨decode_ofNat_drw x y n, fun s h => ?_⟩
  obtain ⟨hpixel, c, hvf, hc⟩ := drawSprite_effect s x y n.isLt
  obtain ⟨hone, hzero⟩ := flagByte_of hc
  exact ⟨_, exec_drw_of_inside x y h, hpixel, fun hp => hvf.trans (hone hp), fun hp => hvf.trans (hzero hp), rfl, rfl,
    s.frame_drawSprite x y _⟩

theorem ofNat_max_memSize {k : Nat} (h : k ≤ 0x1000) : BitVec.ofNat 16 (max k 0x1000) = 0x1000 := by
  rw [Nat.max_eq_right h]
  rfl

/-- Settles O26: the first address outside memory is 0x1000 for every `I` inside it. -/
theorem drawBeyondMemoryRaisesOutOfBounds : Obligations.DrawBeyondMemoryRaisesOutOfBounds := fun s x y _ hi h =>
  ⟨_, exec_drw_of_beyond x y (by omega) h, rfl, rfl, ofNat_max_memSize (by omega), s.frame_raise _⟩

/-- What a sprite covers is decided by memory, `I`, the edge mode and the two coordinate registers. -/
theorem covered_congr {s t : State} {x y : Reg} {n : Nat} {p : Pixel} (hmem : ∀ a, t.mem.read a = s.mem.read a)
    (hi : t.i = s.i) (hcfg : t.cfg = s.cfg) (hx : t.reg x = s.reg x) (hy : t.reg y = s.reg y) :
    Covered t x y n p ↔ Covered s x y n p := by
  simp only [Covered, hmem, hi, hcfg, hx, hy]

/-- Settles O27: the second DRW covers the pixels of the first, and inverts them back. -/
theorem drawingTwiceRestoresTheDisplay : Obligations.DrawingTwiceRestoresTheDisplay := by
  intro s t x y n h hx hy ht
  cases ht.symm.trans (exec_drw_of_inside x y h)
  set t := s.drawSprite x y (s.sprite n.val)
  have frame : Frame [VF] [.display, .pc] s t := s.frame_drawSprite x y _
  have covered (p : Pixel) : Covered t x y n.val p ↔ Covered s x y n.val p :=
    covered_congr frame.memory (frame.index (by decide)) frame.cfg (frame.regs x (by simpa [VF] using hx))
      (frame.regs y (by simpa [VF] using hy))
  have pixel := (drawSprite_effect s x y n.isLt).1
  obtain ⟨pixel', c, hvf, hc⟩ := drawSprite_effect t x y n.isLt
  refine ⟨_, exec_drw_of_inside x y h, fun p => Bool.eq_iff_iff.2 ?_, ?_⟩
  · rw [pixel' p, pixel p, covered p]
    tauto
  · rw [← VF, hvf, flagByte_eq_one, hc]
    refine exists_congr fun p => ?_
    rw [pixel p, covered p, ← Bool.not_eq_true]
    tauto

/-! ## The edge modes inside the screen -/

theorem place_inside (edge : DrawEdge) {cx cy : Nat} (hx : cx < 64) (hy : cy < 32) :
    place edge cx cy = some (⟨cx, hx⟩, ⟨cy, hy⟩) := by
  rw [place_eq_some]
  cases edge with
  | wrap => exact ⟨(Nat.mod_eq_of_lt hx).symm, (Nat.mod_eq_of_lt hy).symm⟩
  | clip => exact ⟨rfl, rfl⟩

theorem rowPoints_inside (edge edge' : DrawEdge) {cx cy : Nat} (hx : cx ≤ 56) (hy : cy < 32) (row : Byte) :
    rowPoints edge cx cy row = rowPoints edge' cx cy row := by
  refine List.filterMap_congr fun col hcol => ?_
  have := List.mem_range.1 hcol
  rw [place_inside edge (by omega) hy, place_inside edge' (by omega) hy]

theorem spritePoints_inside (edge edge' : DrawEdge) {cx : Nat} (hx : cx ≤ 56) {cy : Nat} {rows : List Byte}
    (hy : cy + rows.length ≤ 32) : spritePoints edge cx cy rows = spritePoints edge' cx cy rows := by
  induction rows generalizing cy with
  | nil => rfl
  | cons row rows ih =>
    rw [List.length_cons] at hy
    rw [spritePoints, spritePoints, rowPoints_inside edge edge' hx (by omega), ih (by omega)]

theorem drawSprite_withDrawEdge {s : State} {x y : Reg} {rows : List Byte} (e : DrawEdge) (hx : (s.reg x).toNat ≤ 56)
    (hy : (s.reg y).toNat + rows.length ≤ 32) :
    (s.withDrawEdge e).drawSprite x y rows = (s.drawSprite x y rows).withDrawEdge e := by
  have points := spritePoints_inside (s.withDrawEdge e).cfg.drawEdge s.cfg.drawEdge hx hy
  have hreg (r : Reg) : (s.withDrawEdge e).reg r = s.reg r := rfl
  rw [State.drawSprite, hreg, hreg, points]
  rfl

/-- Settles O28: inside the screen both modes place alike, so the drawn states differ in the parameter only;
a fatal draw draws nothing in either mode. -/
theorem edgeModesAgreeInsideTheScreen : Obligations.EdgeModesAgreeInsideTheScreen := by
  intro s x y n e hx hy
  by_cases h : n.val = 0 ∨ s.i.toNat + n.val ≤ 0x1000
  · refine ⟨_, exec_drw_of_inside x y h, (exec_drw_of_inside (s := s.withDrawEdge e) x y h).trans ?_⟩
    exact congrArg _ (drawSprite_withDrawEdge e hx (by rwa [State.sprite_length]))
  · rw [not_or, Nat.not_le] at h
    exact ⟨_, exec_drw_of_beyond x y h.1 h.2, exec_drw_of_beyond (s := s.withDrawEdge e) x y h.1 h.2⟩

end Sys2Proof.Machine
end

section
/-! PROOFS. Everything a step can do, said once (spec 44_cycle.md R94 to R101), and the statements on a step's
outcome. -/

namespace Sys2Proof.Machine

/-! ## The fetch -/

theorem State.fetch_of_le {s : State} (h : s.pc.toNat ≤ 0xFFE) : s.fetch = .ok s.wordAtPc := by
  obtain ⟨-, hf⟩ | ⟨_, -⟩ := s.fetch_cases
  · exact hf
  · omega

/-- The error of a fetch that leaves memory (44_cycle.md R96). -/
def State.fetchError (s : State) : FatalError := .outOfBoundsAccess (BitVec.ofNat 16 (max s.pc.toNat 0x1000))

theorem State.fetch_of_gt {s : State} (h : 0xFFE < s.pc.toNat) : s.fetch = .error s.fetchError := by
  obtain ⟨_, -⟩ | ⟨-, hf⟩ := s.fetch_cases
  · omega
  · exact hf

theorem State.wordAtPc_toNat (s : State) :
    s.wordAtPc.toNat = (s.mem.read s.pc.toNat).toNat * 256 + (s.mem.read (s.pc.toNat + 1)).toNat := by
  have := (s.mem.read (s.pc.toNat + 1)).isLt
  rw [State.wordAtPc, BitVec.toNat_append, Nat.shiftLeft_eq, Nat.mul_comm, ← Nat.two_pow_add_eq_or_of_lt this,
    Nat.mul_comm]

/-! ## The step, case by case -/

theorem cycle_of_halted {s : State} (h : s.halted = true) : cycle s = .next (s, Events.none) := by
  rw [cycle, if_pos h]

theorem cycle_of_badFetch {s : State} (run : s.halted = false) (hpc : 0xFFE < s.pc.toNat) :
    cycle s = .next (s.raise s.fetchError, Events.none) := by
  simp [cycle, run, State.fetch_of_gt hpc]

theorem cycle_of_word {s : State} (run : s.halted = false) (hpc : s.pc.toNat ≤ 0xFFE) :
    cycle s = runWord s.wordAtPc s := by
  simp [cycle, run, State.fetch_of_le hpc]

theorem finishStep_of_halted (warn : Option Word) {u : State} (h : u.halted = true) :
    finishStep warn (.next u) = .next (u, Events.none) := by
  rw [finishStep, State.finish, if_pos h]

theorem finishStep_of_running (warn : Option Word) {u : State} (h : u.halted = false) :
    finishStep warn (.next u) = .next (u.tick, { beep := u.beepEdge, warn := warn }) := by
  simp [finishStep, State.finish, h]

/-- The step of a running core fetches, decodes and executes `i`. -/
structure Executes (s : State) (i : Instr) : Prop where
  running : s.halted = false
  fetched : s.pc.toNat ≤ 0xFFE
  decoded : decode s.wordAtPc = .instr i

theorem Executes.cycle_eq {s : State} {i : Instr} (h : Executes s i) : cycle s = finishStep none (exec i s) := by
  rw [cycle_of_word h.running h.fetched, runWord, h.decoded]

theorem cycle_of_unknown {s : State} (run : s.halted = false) (hpc : s.pc.toNat ≤ 0xFFE)
    (hd : decode s.wordAtPc = .unknown s.wordAtPc) :
    cycle s = .next (s.markUnknown.advance.tick, { beep := s.beepEdge, warn := some s.wordAtPc }) := by
  rw [cycle_of_word run hpc, runWord, hd]
  exact finishStep_of_running (some s.wordAtPc) (u := s.markUnknown.advance) run

theorem cycle_of_completes {s u : State} {i : Instr} (h : Executes s i) (can : CanComplete i s)
    (hx : exec i s = .next u) : cycle s = .next (u.tick, { beep := s.beepEdge, warn := none }) := by
  have frame := exec_frame can hx
  have run : u.halted = false := (frame.errors (errors_not_mem_writtenParts i)).1.trans h.running
  have edge : u.beepEdge = s.beepEdge := by
    rw [State.beepEdge, (frame.timers (timers_not_mem_writtenParts i)).2, State.beepEdge]
  rw [h.cycle_eq, hx, finishStep_of_running none run, edge]

theorem cycle_of_raises {s : State} {i : Instr} (h : Executes s i) (cannot : ¬ CanComplete i s) :
    cycle s = .next (s.raise (raisedBy i s), Events.none) := by
  rw [h.cycle_eq, exec_raises cannot]
  exact finishStep_of_halted none rfl

/-- Everything a step can do: the next state and the events it answers (44_cycle.md R94, R100). -/
inductive StepOutcome (s : State) : State → Events → Prop
  | ignored (halted : s.halted = true) : StepOutcome s s Events.none
  | badFetch (run : s.halted = false) (hpc : 0xFFE < s.pc.toNat) : StepOutcome s (s.raise s.fetchError) Events.none
  | raises (i : Instr) (hi : Executes s i) (cannot : ¬ CanComplete i s) :
      StepOutcome s (s.raise (raisedBy i s)) Events.none
  | completes (i : Instr) (u : State) (hi : Executes s i) (can : CanComplete i s) (hx : exec i s = .next u) :
      StepOutcome s u.tick { beep := s.beepEdge, warn := none }
  | unknown (run : s.halted = false) (hpc : s.pc.toNat ≤ 0xFFE) (hd : decode s.wordAtPc = .unknown s.wordAtPc) :
      StepOutcome s s.markUnknown.advance.tick { beep := s.beepEdge, warn := some s.wordAtPc }

/-- Every step answers, and has an outcome. -/
theorem cycle_outcome (s : State) : ∃ t ev, cycle s = .next (t, ev) ∧ StepOutcome s t ev := by
  cases run : s.halted with
  | true => exact ⟨_, _, cycle_of_halted run, .ignored run⟩
  | false =>
    by_cases hpc : s.pc.toNat ≤ 0xFFE
    · cases hd : decode s.wordAtPc with
      | instr i =>
        have hi : Executes s i := ⟨run, hpc, hd⟩
        by_cases can : CanComplete i s
        · obtain ⟨u, hx, -⟩ := exec_completes can
          exact ⟨_, _, cycle_of_completes hi can hx, .completes i u hi can hx⟩
        · exact ⟨_, _, cycle_of_raises hi can, .raises i hi can⟩
      | unknown w =>
        rw [eq_of_decode_unknown hd] at hd
        exact ⟨_, _, cycle_of_unknown run hpc hd, .unknown run hpc hd⟩
    · rw [Nat.not_le] at hpc
      exact ⟨_, _, cycle_of_badFetch run hpc, .badFetch run hpc⟩

theorem outcome_of_cycle {s t : State} {ev : Events} (h : cycle s = .next (t, ev)) : StepOutcome s t ev := by
  obtain ⟨t', ev', h', outcome⟩ := cycle_outcome s
  cases h.symm.trans h'
  exact outcome

theorem outcome_of_step {s t : State} (h : step s = .next t) : ∃ ev, StepOutcome s t ev := by
  obtain ⟨ev, hc⟩ := step_eq_next.1 h
  exact ⟨ev, outcome_of_cycle hc⟩

theorem step_of_cycle {s t : State} {ev : Events} (h : cycle s = .next (t, ev)) : step s = .next t :=
  step_eq_next.2 ⟨ev, h⟩

/-- A step either ends halted, with no event and nothing changed but the error registers, or it runs to its tick. -/
theorem StepOutcome.halts_or_ticks {s t : State} {ev : Events} (h : StepOutcome s t ev) :
    (t.halted = true ∧ ev = Events.none ∧ Frame [] [.errors] s t) ∨
    (s.halted = false ∧ t.halted = false ∧ ev.beep = s.beepEdge ∧ t.dt = countDown s.dt ∧ t.st = countDown s.st) := by
  cases h with
  | ignored halted => exact .inl ⟨halted, rfl, s.frame_refl.reorder (List.nil_subset _)⟩
  | badFetch => exact .inl ⟨rfl, rfl, s.frame_raise _⟩
  | raises => exact .inl ⟨rfl, rfl, s.frame_raise _⟩
  | completes i u hi can hx =>
    have frame := exec_frame can hx
    obtain ⟨hdt, hst⟩ := frame.timers (timers_not_mem_writtenParts i)
    exact .inr ⟨hi.running, (frame.errors (errors_not_mem_writtenParts i)).1.trans hi.running, rfl,
      congrArg countDown hdt, congrArg countDown hst⟩
  | unknown run => exact .inr ⟨run, run, rfl, rfl, rfl⟩

/-- The step that decodes an instruction and does not end halted completed it. -/
theorem StepOutcome.completed {s t : State} {ev : Events} {i : Instr} (h : StepOutcome s t ev)
    (running : t.halted = false) (decoded : decode s.wordAtPc = .instr i) :
    CanComplete i s ∧ ∃ u, exec i s = .next u ∧ t = u.tick := by
  cases h with
  | ignored halted => rw [halted] at running; contradiction
  | badFetch => contradiction
  | raises => contradiction
  | completes j u hj can hx =>
    cases decoded.symm.trans hj.decoded
    exact ⟨can, u, hx, rfl⟩
  | unknown _ _ hd => cases decoded.symm.trans hd

/-! ## The statements -/

/-- Settles O29: the tick follows unless the instruction ended halted. -/
theorem stepRunsTheDecodedInstruction : Obligations.StepRunsTheDecodedInstruction := by
  intro s t i run hpc hd _ hx
  have hcycle := (Executes.mk run hpc hd).cycle_eq
  rw [step, hcycle, hx]
  by_cases ht : t.halted = true
  · rw [finishStep_of_halted none ht, if_pos ht]
    rfl
  · rw [finishStep_of_running none (Bool.not_eq_true _ ▸ ht), if_neg ht]
    rfl

/-- Settles O34: the fetched word as a number, and the outcome of a fetch that leaves memory. -/
theorem fetchIsBigEndianAndBounded : Obligations.FetchIsBigEndianAndBounded := by
  refine fun s => ⟨fun hpc => ⟨_, State.fetch_of_le hpc, s.wordAtPc_toNat⟩, fun run hpc => ?_⟩
  refine ⟨_, step_of_cycle (cycle_of_badFetch run hpc), rfl, rfl, fun h => ?_, fun h => ?_, s.frame_raise _⟩
  · rw [State.raise_errAddr, State.fetchError, FatalError.addr, ofNat_max_memSize (by omega)]
    rfl
  · rw [State.raise_errAddr, State.fetchError, FatalError.addr, Nat.max_eq_left h, BitVec.ofNat_toNat,
      BitVec.setWidth_eq]

theorem State.beepEdge_iff (s : State) : s.beepEdge = true ↔ s.st.toNat = 1 := by
  rw [State.beepEdge, beq_iff_eq, ← BitVec.toNat_inj]
  rfl

/-- Settles O35: the outcome UNKNOWN, and the frames of its three updates. -/
theorem unknownWordWarnsAndAdvances : Obligations.UnknownWordWarnsAndAdvances := by
  intro s run hpc hd
  have edge : s.beepEdge = decide (s.st.toNat = 1) := Bool.eq_iff_iff.2 (by rw [s.beepEdge_iff, decide_eq_true_iff])
  refine ⟨s.markUnknown.advance.tick, by rw [cycle_of_unknown run hpc hd, edge], rfl, rfl, countDown_toNat _,
    countDown_toNat _, ?_⟩
  exact ((s.frame_markUnknown.trans (State.frame_advance _)).trans (State.frame_tick _)).reorder

/-- Settles O36: only the outcome UNKNOWN sets the flag or warns. -/
theorem unkSeenIsStickyAndFollowsTheWarning : Obligations.UnkSeenIsStickyAndFollowsTheWarning := by
  intro s t ev h
  cases outcome_of_cycle h with
  | ignored | badFetch | raises => simp [Events.none]
  | completes i u _ can hx => simp [(exec_frame can hx).unkSeen (unkSeen_not_mem_writtenParts i)]
  | unknown _ _ hd => simp [hd]

/-- The step that meets an UNKNOWN word and does not end halted ran `execUnknown`. -/
theorem StepOutcome.ran_unknown {s t : State} {ev : Events} {w : Word} (h : StepOutcome s t ev)
    (running : t.halted = false) (decoded : decode s.wordAtPc = .unknown w) : t = s.markUnknown.advance.tick := by
  cases h with
  | ignored halted => rw [halted] at running; contradiction
  | badFetch => contradiction
  | raises => contradiction
  | completes i u hi => cases decoded.symm.trans hi.decoded
  | unknown => rfl

theorem StepOutcome.frame_of_halted {s t : State} {ev : Events} (h : StepOutcome s t ev)
    (halted : s.halted = true ∨ t.halted = true) : Frame [] [.errors] s t := by
  obtain ⟨-, -, frame⟩ | ⟨hs, ht, -⟩ := h.halts_or_ticks
  · exact frame
  · simp [hs, ht] at halted

/-- Settles O37: a step that starts or ends halted changes the error registers only; the others by what they ran. -/
theorem pcFollowsTheUpdateTable : Obligations.PcFollowsTheUpdateTable := by
  intro s t h
  obtain ⟨ev, outcome⟩ := outcome_of_step h
  refine ⟨fun halted => ?ignored, fun halted => ?fatal, fun running => ⟨fun i hd => ?instr, fun u hd => ?unknown⟩⟩
  case ignored => exact (outcome.frame_of_halted (.inl halted)).pc (by decide)
  case fatal => exact (outcome.frame_of_halted (.inr halted)).pc (by decide)
  case instr =>
    obtain ⟨can, u, hx, rfl⟩ := outcome.completed running hd
    rw [State.tick_pc, exec_pc can hx]
  case unknown => rw [outcome.ran_unknown running hd, State.tick_pc, State.advance_pc, State.markUnknown_pc]

/-- The one outcome that a step's end and events show. -/
def StepKind.of (s t : State) (ev : Events) : StepKind :=
  if s.halted then .ignored
  else if t.halted then .faulted
  else if ev.warn.isSome then .completedWithWarning
  else .completed

theorem StepKind.Describes.eq_of {k : StepKind} {s t : State} {ev : Events} (h : k.Describes s t ev) :
    k = StepKind.of s t ev := by
  cases k with
  | completed =>
    obtain ⟨hs, ht, -, -, rfl, -⟩ := h
    simp [StepKind.of, hs, ht]
  | completedWithWarning =>
    obtain ⟨hs, ht, -, -, rfl, -⟩ := h
    simp [StepKind.of, hs, ht]
  | faulted =>
    obtain ⟨hs, ht, -⟩ := h
    simp [StepKind.of, hs, ht]
  | ignored =>
    obtain ⟨hs, -⟩ := h
    simp [StepKind.of, hs]

theorem FatalError.code_ne_none (e : FatalError) : e.code ≠ .none := by cases e <;> simp [FatalError.code]

theorem StepOutcome.described {s t : State} {ev : Events} (h : StepOutcome s t ev) :
    ∃ k : StepKind, k.Describes s t ev := by
  cases h with
  | ignored halted => exact ⟨.ignored, halted, rfl, rfl⟩
  | badFetch run => exact ⟨.faulted, run, rfl, FatalError.code_ne_none s.fetchError, rfl, rfl⟩
  | raises i hi => exact ⟨.faulted, hi.running, rfl, FatalError.code_ne_none (raisedBy i s), rfl, rfl⟩
  | completes i u hi can hx =>
    have frame := exec_frame can hx
    obtain ⟨hdt, hst⟩ := frame.timers (timers_not_mem_writtenParts i)
    have running := (frame.errors (errors_not_mem_writtenParts i)).1.trans hi.running
    refine ⟨.completed, hi.running, running, hi.fetched, ⟨i, hi.decoded⟩, rfl, ?_, ?_,
      frame.unkSeen (unkSeen_not_mem_writtenParts i)⟩
    · rw [State.tick_dt, countDown_toNat, hdt]
    · rw [State.tick_st, countDown_toNat, hst]
  | unknown run hpc hd =>
    exact ⟨.completedWithWarning, run, run, hpc, hd, rfl, countDown_toNat _, countDown_toNat _, rfl⟩

/-- Settles O32: each outcome is described, and the end and the events tell which (`StepKind.of`). -/
theorem everyStepHasExactlyOneOfFourOutcomes : Obligations.EveryStepHasExactlyOneOfFourOutcomes := by
  intro s
  obtain ⟨t, ev, hc, outcome⟩ := cycle_outcome s
  obtain ⟨k, hk⟩ := outcome.described
  exact ⟨t, ev, hc, step_of_cycle hc, k, hk, fun k' hk' => hk'.eq_of.trans hk.eq_of.symm⟩

/-! ## Fatal steps -/

theorem StepOutcome.halted_iff {s t : State} {ev : Events} (h : StepOutcome s t ev) (run : s.halted = false) :
    t.halted = true ↔ 0xFFE < s.pc.toNat ∨ ∃ i, decode s.wordAtPc = .instr i ∧ ¬ CanComplete i s := by
  cases h with
  | ignored halted => rw [run] at halted; contradiction
  | badFetch _ hpc => exact iff_of_true rfl (.inl hpc)
  | raises i hi cannot => exact iff_of_true rfl (.inr ⟨i, hi.decoded, cannot⟩)
  | completes i u hi can hx =>
    have running : u.halted = s.halted := ((exec_frame can hx).errors (errors_not_mem_writtenParts i)).1
    refine iff_of_false (by simp [running, run]) ?_
    rintro (hpc | ⟨j, hj, cannot⟩)
    · exact absurd hi.fetched (by omega)
    · cases hj.symm.trans hi.decoded
      exact cannot can
  | unknown _ hpc hd =>
    refine iff_of_false (by simp [run]) ?_
    rintro (hpc' | ⟨j, hj, -⟩)
    · omega
    · cases hj.symm.trans hd

theorem State.fetchError_addr {s : State} (h : 0xFFE < s.pc.toNat) :
    s.fetchError.addr = if s.pc = 0xFFF then 0x1000 else s.pc := by
  rw [State.fetchError, FatalError.addr]
  split
  · rename_i hpc
    rw [hpc]
    rfl
  · rename_i hpc
    have : s.pc.toNat ≠ 0xFFF := fun e => hpc (BitVec.eq_of_toNat_eq e)
    rw [Nat.max_eq_left (by omega), BitVec.ofNat_toNat, BitVec.setWidth_eq]

/-- Settles O33: the causes by `StepOutcome.halted_iff`, the record of each by the step that the cause determines. -/
theorem fatalErrorsHaveExactlyTheirCauses : Obligations.FatalErrorsHaveExactlyTheirCauses := by
  refine ⟨fun s t run hi h => ⟨?causes, fun hpc => ?fetch, fun hpc i hd cannot => ?instr⟩, rfl, rfl, rfl, rfl⟩
  case causes =>
    obtain ⟨ev, outcome⟩ := outcome_of_step h
    exact outcome.halted_iff run
  case fetch =>
    cases h.symm.trans (step_of_cycle (cycle_of_badFetch run hpc))
    exact ⟨rfl, State.fetchError_addr hpc⟩
  case instr =>
    cases h.symm.trans (step_of_cycle (cycle_of_raises ⟨run, hpc, hd⟩ cannot))
    refine ⟨?_, ?_, ?_⟩
    · rintro nnn rfl
      exact ⟨rfl, rfl⟩
    · rintro rfl
      exact ⟨rfl, rfl⟩
    · rintro x y n rfl
      exact ⟨rfl, ofNat_max_memSize (by omega)⟩

end Sys2Proof.Machine
end

section
/-! PROOFS. Which instruction may write which part of the state (spec 10_state.md): a step that changes more than the
control state completed an instruction, and the change lies in that instruction's footprint. -/

namespace Sys2Proof.Machine

/-- The parts that a step may write whatever instruction it meets, or with none. -/
def controlParts : List Part := [.pc, .timers, .errors, .unkSeen]

/-- A step changes the control state only, or it completes an instruction and ticks. -/
theorem StepOutcome.control_or_completes {s t : State} {ev : Events} (h : StepOutcome s t ev) :
    Frame [] controlParts s t ∨
    ∃ i u, Executes s i ∧ CanComplete i s ∧ exec i s = .next u ∧ t = u.tick := by
  cases h with
  | ignored => exact .inl (s.frame_refl.reorder (List.nil_subset _))
  | badFetch => exact .inl (s.frame_raise _).reorder
  | raises => exact .inl (s.frame_raise _).reorder
  | completes i u hi can hx => exact .inr ⟨i, u, hi, can, hx, rfl⟩
  | unknown => exact .inl ((s.frame_markUnknown.trans (State.frame_advance _)).trans (State.frame_tick _)).reorder

theorem step_control_or_completes {s t : State} (h : step s = .next t) :
    Frame [] controlParts s t ∨
    ∃ i u, Executes s i ∧ CanComplete i s ∧ exec i s = .next u ∧ t = u.tick := by
  obtain ⟨ev, outcome⟩ := outcome_of_step h
  exact outcome.control_or_completes

/-! ## Registers -/

theorem step_reg_changed {s t : State} {r : Reg} (h : step s = .next t) (hne : t.reg r ≠ s.reg r) :
    ∃ i, Executes s i ∧ r ∈ writtenRegs i := by
  obtain frame | ⟨i, u, hi, can, hx, rfl⟩ := step_control_or_completes h
  · exact absurd (frame.regs r List.not_mem_nil) hne
  · refine ⟨i, hi, ?_⟩
    by_contra hr
    exact hne ((exec_frame can hx).regs r hr)

/-- Settles O39: VF apart, an instruction's footprint holds its destination only. -/
theorem onlyTheDestinationRegisterChanges : Obligations.OnlyTheDestinationRegisterChanges := by
  intro s t r h hr hne
  obtain ⟨i, hi, hmem⟩ := step_reg_changed h hne
  obtain hd | ⟨-, hvf⟩ := mem_writtenRegs.1 hmem
  · exact ⟨i, hi.decoded, hd⟩
  · exact absurd hvf hr

theorem shiftedOutRight_iff (b : Byte) : shiftedOutRight b = true ↔ b.toNat % 2 = 1 := by
  rw [← shiftedOutRight_toNat, Bool.toNat_eq_one]

theorem shiftedOutLeft_iff (b : Byte) : shiftedOutLeft b = true ↔ 128 ≤ b.toNat := by
  have := b.isLt
  rw [← Bool.toNat_eq_one, shiftedOutLeft_toNat]
  omega

/-- A completed flagged operation leaves its flag in VF, with the meaning of the table of flags (10_state.md section
4). -/
theorem exec_flag {i : Instr} {s u : State} (hflag : flagged i = true) (can : CanComplete i s)
    (hx : exec i s = .next u) : ∃ c, u.reg VF = flagByte c ∧ (c = true ↔ FlagCondition i s) := by
  cases i with
  | addReg x y =>
    cases hx
    exact ⟨_, State.setRegFlag_reg_flag s x _ _, carryOut_iff _ _⟩
  | subReg x y =>
    cases hx
    exact ⟨_, State.setRegFlag_reg_flag s x _ _, noBorrow_iff _ _⟩
  | subn x y =>
    cases hx
    exact ⟨_, State.setRegFlag_reg_flag s x _ _, noBorrow_iff _ _⟩
  | shr x y =>
    cases hx
    exact ⟨_, State.setRegFlag_reg_flag s x _ _, by rw [shiftedOutRight_iff, State.shiftSource_eq]; rfl⟩
  | shl x y =>
    cases hx
    exact ⟨_, State.setRegFlag_reg_flag s x _ _, by rw [shiftedOutLeft_iff, State.shiftSource_eq]; rfl⟩
  | drw x y n =>
    cases hx.symm.trans (exec_drw_of_inside x y can)
    exact (drawSprite_effect s x y n.isLt).2
  | cls | ret | jp | call | seImm | sneImm | seReg | ldImm | addImm | ldReg | orReg | andReg | xorReg | sneReg | ldI
  | jpV0 | rnd => exact absurd hflag Bool.false_ne_true

/-- Settles O38: VF in the footprint means a flag or the destination; the flag's value is `exec_flag`. -/
theorem vfIsWrittenByFlaggedOperationsOnly : Obligations.VfIsWrittenByFlaggedOperationsOnly := by
  refine fun s t h => ⟨fun hne => ?_, fun _ running i hd hflag => ?_⟩
  · obtain ⟨i, hi, hmem⟩ := step_reg_changed h hne
    exact ⟨hi.running, i, hi.decoded, (mem_writtenRegs.1 hmem).symm.imp_left And.left⟩
  · obtain ⟨ev, outcome⟩ := outcome_of_step h
    obtain ⟨can, u, hx, rfl⟩ := outcome.completed running hd
    obtain ⟨c, hvf, hc⟩ := exec_flag hflag can hx
    obtain ⟨hone, hzero⟩ := flagByte_of hc
    exact ⟨fun hp => hvf.trans (hone hp), fun hp => hvf.trans (hzero hp)⟩

/-! ## The index register -/

/-- A completed instruction that is not LD I keeps I. -/
theorem exec_index {i : Instr} {s u : State} (can : CanComplete i s) (hx : exec i s = .next u) :
    u.i = s.i ∨ ∃ nnn, i = .ldI nnn ∧ u.i = zext16 nnn := by
  by_cases hmem : Part.index ∈ writtenParts i
  · obtain ⟨nnn, rfl⟩ := index_mem_writtenParts.1 hmem
    cases hx
    exact .inr ⟨nnn, rfl, rfl⟩
  · exact .inl ((exec_frame can hx).index hmem)

/-- Settles O40: of the instructions by `exec_index`, of the host's moves by their cases. -/
theorem onlyLoadIndexWritesTheIndexRegister : Obligations.OnlyLoadIndexWritesTheIndexRegister := by
  refine ⟨fun s t h hne => ?step, fun s m hm => ?host⟩
  case step =>
    obtain frame | ⟨i, u, hi, can, hx, rfl⟩ := step_control_or_completes h
    · exact absurd (frame.index (by decide)) hne
    · obtain keep | ⟨nnn, rfl, hu⟩ := exec_index can hx
      · exact absurd keep hne
      · exact ⟨nnn, hi.decoded, by rw [State.tick_i, hu, zext16_toNat]⟩
  case host =>
    cases m with
    | reset => exact absurd rfl hm
    | load | writeDT | writeST | clearDirty | presentRnd => rfl

/-! ## The stack -/

/-- What a completed instruction does to the stack: nothing, CALL's push, or RET's pop. -/
theorem exec_stack {i : Instr} {s u : State} (can : CanComplete i s) (hx : exec i s = .next u) :
    (u.sp = s.sp ∧ ∀ k : Fin 16, u.stack[k] = s.stack[k]) ∨
    (∃ nnn, i = .call nnn ∧ u.sp.val = s.sp.val + 1 ∧
      ∀ k : Fin 16, u.stack[k] = if k.val = s.sp.val then s.pc + 2 else s.stack[k]) ∨
    (i = .ret ∧ u.sp.val + 1 = s.sp.val ∧ ∀ k : Fin 16, u.stack[k] = s.stack[k]) := by
  by_cases hmem : Part.stack ∈ writtenParts i
  · obtain rfl | ⟨nnn, rfl⟩ := stack_mem_writtenParts.1 hmem
    · obtain ⟨k, hk⟩ := State.exists_top can
      obtain ⟨v, hv, -, hsp, hstack, -⟩ := exec_ret_of_entry hk
      cases hx.symm.trans hv
      exact .inr (.inr ⟨rfl, by rw [hsp, hk], hstack⟩)
    · obtain ⟨v, hv, -, hsp, hstack, -⟩ := exec_call_of_room nnn can
      cases hx.symm.trans hv
      exact .inr (.inl ⟨nnn, rfl, hsp, hstack⟩)
  · exact .inl ((exec_frame can hx).stack hmem)

/-- What a step does to the stack, with the instruction that did it. -/
theorem step_stack {s t : State} (h : step s = .next t) :
    (t.sp = s.sp ∧ ∀ k : Fin 16, t.stack[k] = s.stack[k]) ∨
    (∃ nnn, decode s.wordAtPc = .instr (.call nnn) ∧ t.sp.val = s.sp.val + 1 ∧
      ∀ k : Fin 16, t.stack[k] = if k.val = s.sp.val then s.pc + 2 else s.stack[k]) ∨
    (decode s.wordAtPc = .instr .ret ∧ t.sp.val + 1 = s.sp.val ∧ ∀ k : Fin 16, t.stack[k] = s.stack[k]) := by
  obtain frame | ⟨i, u, hi, can, hx, rfl⟩ := step_control_or_completes h
  · exact .inl (frame.stack (by decide))
  · obtain kept | ⟨nnn, rfl, pushed⟩ | ⟨rfl, popped⟩ := exec_stack can hx
    · exact .inl kept
    · exact .inr (.inl ⟨nnn, hi.decoded, pushed⟩)
    · exact .inr (.inr ⟨hi.decoded, popped⟩)

/-- Settles O41: by what a step does to the stack (`step_stack`). -/
theorem onlyCallPushesAndOnlyReturnPops : Obligations.OnlyCallPushesAndOnlyReturnPops := by
  intro s t h
  obtain ⟨hsp, hstack⟩ | ⟨nnn, hd, hsp, hstack⟩ | ⟨hd, hsp, hstack⟩ := step_stack h
  · rw [hsp]
    exact ⟨fun hlt => absurd hlt (lt_irrefl _), fun hlt => absurd hlt (lt_irrefl _),
      fun k hne => absurd (hstack k) hne⟩
  · refine ⟨fun _ => ⟨hsp, nnn, hd⟩, fun hlt => by omega, fun k hne => ?_⟩
    have hk : k.val = s.sp.val := by
      by_contra hk
      exact hne ((hstack k).trans (if_neg hk))
    exact ⟨hk, (hstack k).trans (if_pos hk), nnn, hd⟩
  · exact ⟨fun hlt => by omega, fun _ => ⟨hsp, hd⟩, fun k hne => absurd (hstack k) hne⟩

/-! ## The display -/

/-- A completed CLS or DRW marks the display dirty (42_display.md R84). -/
theorem exec_dirty {i : Instr} {s u : State} (hi : i = .cls ∨ ∃ x y n, i = .drw x y n) (can : CanComplete i s)
    (hx : exec i s = .next u) : u.dirty = true ∧ u.pc = s.pc + 2 := by
  obtain rfl | ⟨x, y, n, rfl⟩ := hi
  · cases hx
    exact ⟨rfl, rfl⟩
  · cases hx.symm.trans (exec_drw_of_inside x y can)
    exact ⟨rfl, rfl⟩

theorem step_display_changed {s t : State} (h : step s = .next t)
    (hne : (∃ p, t.disp.pixel p ≠ s.disp.pixel p) ∨ t.dirty ≠ s.dirty) :
    ∃ i, decode s.wordAtPc = .instr i ∧ (i = .cls ∨ ∃ x y n, i = .drw x y n) := by
  have changed : ¬ ((∀ p, t.disp.pixel p = s.disp.pixel p) ∧ t.dirty = s.dirty) := by
    rwa [not_and_or, not_forall]
  obtain frame | ⟨i, u, hi, can, hx, rfl⟩ := step_control_or_completes h
  · exact absurd (frame.display (by decide)) changed
  · refine ⟨i, hi.decoded, display_mem_writtenParts.1 ?_⟩
    by_contra hmem
    exact changed ((exec_frame can hx).display hmem)

/-- Settles O42: a change means CLS or DRW by the footprint, and the completion of either is known (`exec_dirty`). -/
theorem onlyClearAndDrawChangeTheDisplay : Obligations.OnlyClearAndDrawChangeTheDisplay := by
  refine ⟨fun s t h => ⟨fun hne => ?changed, fun _ running hd => ?completed⟩,
    fun s m hm => ⟨fun p => by rw [hostMove_disp hm], fun hclear => ?host⟩⟩
  case changed =>
    obtain ⟨i, hd, rfl | ⟨x, y, n, rfl⟩⟩ := step_display_changed h hne
    · exact .inl hd
    · exact .inr ⟨x, y, n, hd⟩
  case completed =>
    obtain ⟨ev, outcome⟩ := outcome_of_step h
    obtain ⟨i, hi, hd⟩ : ∃ i, (i = .cls ∨ ∃ x y n, i = .drw x y n) ∧ decode s.wordAtPc = .instr i := by
      obtain hd | ⟨x, y, n, hd⟩ := hd
      · exact ⟨_, .inl rfl, hd⟩
      · exact ⟨_, .inr ⟨x, y, n, rfl⟩, hd⟩
    obtain ⟨can, u, hx, rfl⟩ := outcome.completed running hd
    have done := exec_dirty hi can hx
    exact done
  case host =>
    cases m with
    | reset => exact absurd rfl hm
    | clearDirty => exact absurd rfl hclear
    | load | writeDT | writeST | presentRnd => rfl

/-! ## The random source and the parameters -/

theorem step_cfg {s t : State} (h : step s = .next t) : t.cfg = s.cfg := by
  obtain frame | ⟨i, u, -, can, hx, rfl⟩ := step_control_or_completes h
  · exact frame.cfg
  · exact (exec_frame can hx).cfg

/-- Settles O47: a step that executes RND is known whole; every other step's footprint leaves the random source out. -/
theorem onlyRandomSamplesTheSourceAndNothingChangesTheParameters :
    Obligations.OnlyRandomSamplesTheSourceAndNothingChangesTheParameters := by
  refine fun s t h => ⟨step_cfg h, ?samples, fun hno => ?others⟩
  case samples =>
    rintro ⟨x, kk, run, hpc, hd⟩
    cases h.symm.trans (step_of_cycle (cycle_of_completes ⟨run, hpc, hd⟩ trivial rfl))
    exact ⟨fun r rest hin => by simp [hin], fun hin => by simp [hin]⟩
  case others =>
    obtain frame | ⟨i, u, hi, can, hx, rfl⟩ := step_control_or_completes h
    · exact frame.random (by decide)
    · refine (exec_frame can hx).random fun hmem => ?_
      obtain ⟨x, kk, rfl⟩ := random_mem_writtenParts.1 hmem
      exact hno ⟨x, kk, hi.running, hi.fetched, hi.decoded⟩

end Sys2Proof.Machine
end

section
/-! PROOFS. The timers and the beep (spec 44_cycle.md R98, R99), and that nothing the program does depends on what is
kept for the host: DT, ST, `dirty` and `unk_seen`. -/

namespace Sys2Proof.Machine

/-! ## What the host alone looks at -/

/-- The state with other timers and flags for the host. -/
def State.withHostView (s : State) (dt st : Byte) (dirty unk : Bool) : State :=
  { s with dt := dt, st := st, dirty := dirty, unkSeen := unk }

theorem exec_answers (i : Instr) (s : State) : ∃ t, exec i s = .next t := by
  by_cases can : CanComplete i s
  · obtain ⟨t, hx, -⟩ := exec_completes can
    exact ⟨t, hx⟩
  · exact ⟨_, exec_raises can⟩

/-- An instruction does the same under every host view: it keeps timers and `unk_seen`, and what becomes of `dirty`
depends on `dirty` alone. -/
theorem exec_withHostView {i : Instr} {s t : State} (h : exec i s = .next t) :
    ∃ f : Bool → Bool, ∀ dt st dirty unk,
      exec i (s.withHostView dt st dirty unk) = .next (t.withHostView dt st (f dirty) unk) := by
  cases i with
  | cls =>
    cases h
    exact ⟨fun _ => true, fun _ _ _ _ => rfl⟩
  | call nnn =>
    by_cases room : s.sp.val < 16
    · cases h.symm.trans (exec_call_eq nnn room)
      exact ⟨id, fun dt st dirty unk => exec_call_eq (s := s.withHostView dt st dirty unk) nnn room⟩
    · have full : s.sp.val = 16 := by omega
      cases h.symm.trans (exec_call_of_full nnn full)
      exact ⟨id, fun dt st dirty unk => exec_call_of_full (s := s.withHostView dt st dirty unk) nnn full⟩
  | ret =>
    by_cases entry : 0 < s.sp.val
    · obtain ⟨k, hk⟩ := State.exists_top entry
      cases h.symm.trans (exec_ret_eq hk)
      exact ⟨id, fun dt st dirty unk => exec_ret_eq (s := s.withHostView dt st dirty unk) hk⟩
    · have empty : s.sp.val = 0 := by omega
      cases h.symm.trans (exec_ret_of_empty empty)
      exact ⟨id, fun dt st dirty unk => exec_ret_of_empty (s := s.withHostView dt st dirty unk) empty⟩
  | drw x y n =>
    by_cases inside : n.val = 0 ∨ s.i.toNat + n.val ≤ 0x1000
    · cases h.symm.trans (exec_drw_of_inside x y inside)
      exact ⟨fun _ => true, fun dt st dirty unk =>
        exec_drw_of_inside (s := s.withHostView dt st dirty unk) x y inside⟩
    · rw [not_or, Nat.not_le] at inside
      cases h.symm.trans (exec_drw_of_beyond x y inside.1 inside.2)
      exact ⟨id, fun dt st dirty unk =>
        exec_drw_of_beyond (s := s.withHostView dt st dirty unk) x y inside.1 inside.2⟩
  | jp | seImm | sneImm | seReg | ldImm | addImm | ldReg | orReg | andReg | xorReg | addReg | subReg | shr | subn | shl
  | sneReg | ldI | jpV0 | rnd =>
    cases h
    exact ⟨id, fun _ _ _ _ => rfl⟩

/-- A step does the same under every host view: each of the four ends as a function of itself alone. -/
theorem step_withHostView (s : State) :
    ∃ t : State, ∃ timer : Byte → Byte, ∃ f g : Bool → Bool, ∀ dt st dirty unk,
      step (s.withHostView dt st dirty unk) = .next (t.withHostView (timer dt) (timer st) (f dirty) (g unk)) := by
  cases run : s.halted with
  | true =>
    exact ⟨s, id, id, id, fun dt st dirty unk =>
      step_of_cycle (cycle_of_halted (s := s.withHostView dt st dirty unk) run)⟩
  | false =>
    by_cases hpc : s.pc.toNat ≤ 0xFFE
    · cases hd : decode s.wordAtPc with
      | instr i =>
        obtain ⟨t, hx⟩ := exec_answers i s
        obtain ⟨f, hview⟩ := exec_withHostView hx
        have hcycle (dt st : Byte) (dirty unk : Bool) : cycle (s.withHostView dt st dirty unk) =
            finishStep none (.next (t.withHostView dt st (f dirty) unk)) := by
          rw [← hview]
          exact (Executes.mk (s := s.withHostView dt st dirty unk) run hpc hd).cycle_eq
        cases ht : t.halted with
        | true =>
          exact ⟨t, id, f, id, fun dt st dirty unk =>
            step_of_cycle ((hcycle dt st dirty unk).trans (finishStep_of_halted none ht))⟩
        | false =>
          exact ⟨t, countDown, f, id, fun dt st dirty unk =>
            step_of_cycle ((hcycle dt st dirty unk).trans (finishStep_of_running none ht))⟩
      | unknown w =>
        rw [eq_of_decode_unknown hd] at hd
        exact ⟨s.markUnknown.advance, countDown, id, fun _ => true, fun dt st dirty unk =>
          step_of_cycle (cycle_of_unknown (s := s.withHostView dt st dirty unk) run hpc hd)⟩
    · rw [Nat.not_le] at hpc
      exact ⟨s.raise s.fetchError, id, id, id, fun dt st dirty unk =>
        step_of_cycle (cycle_of_badFetch (s := s.withHostView dt st dirty unk) run hpc)⟩

/-- Settles O46: both states are host views of one state (`step_withHostView`). -/
theorem timersAndFlagsForTheHostNeverInfluenceTheProgram :
    Obligations.TimersAndFlagsForTheHostNeverInfluenceTheProgram := by
  intro s dt st dirty unk
  obtain ⟨t, timer, f, g, hstep⟩ := step_withHostView s
  exact ⟨_, _, hstep s.dt s.st s.dirty s.unkSeen, hstep dt st dirty unk, rfl⟩

/-! ## The timers -/

theorem StepOutcome.timers_of_running {s t : State} {ev : Events} (h : StepOutcome s t ev)
    (running : t.halted = false) : t.dt.toNat = s.dt.toNat - 1 ∧ t.st.toNat = s.st.toNat - 1 := by
  obtain ⟨halted, -⟩ | ⟨-, -, -, hdt, hst⟩ := h.halts_or_ticks
  · rw [running] at halted; contradiction
  · rw [hdt, hst, countDown_toNat, countDown_toNat]
    exact ⟨rfl, rfl⟩

/-- The beep is the tick of ST from 1 to 0 (44_cycle.md R99). -/
theorem StepOutcome.beep_iff {s t : State} {ev : Events} (h : StepOutcome s t ev) :
    ev.beep = true ↔ s.st.toNat = 1 ∧ t.st.toNat = 0 := by
  obtain ⟨-, rfl, frame⟩ | ⟨-, -, hbeep, -, hst⟩ := h.halts_or_ticks
  · rw [(frame.timers (by decide)).2]
    refine iff_of_false Bool.false_ne_true ?_
    omega
  · rw [hbeep, s.beepEdge_iff, hst, countDown_toNat]
    omega

/-- Settles O44: the step by its outcome; the instruction by `exec_withHostView`, at the timers' own values and at
others. -/
theorem timersCountCompletedStepsAndNoInstructionTouchesThem :
    Obligations.TimersCountCompletedStepsAndNoInstructionTouchesThem := by
  refine ⟨fun s t ev h => ?step, fun i s dt st => ?exec, fun s m => ?host⟩
  case step =>
    have outcome := outcome_of_cycle h
    exact ⟨outcome.timers_of_running, fun halted => (outcome.frame_of_halted (.inr halted)).timers (by decide),
      outcome.beep_iff⟩
  case exec =>
    obtain ⟨t, hx⟩ := exec_answers i s
    obtain ⟨f, hview⟩ := exec_withHostView hx
    exact ⟨_, hview s.dt s.st s.dirty s.unkSeen, rfl, rfl, hview dt st s.dirty s.unkSeen⟩
  case host => cases m <;> exact ⟨rfl, rfl⟩

/-! ## The beep -/

theorem events_of_cycle {s t : State} {ev : Events} (h : cycle s = .next (t, ev)) : s.events = ev := by
  rw [State.events, h]

theorem beep_iff_of_step {s t : State} (h : step s = .next t) :
    s.events.beep = true ↔ s.st.toNat = 1 ∧ t.st.toNat = 0 := by
  obtain ⟨ev, hc⟩ := step_eq_next.1 h
  rw [events_of_cycle hc]
  exact (outcome_of_cycle hc).beep_iff

/-- Along completed steps the sound timer counts down from its load. -/
theorem soundTimer_after {run : Nat → State} {len : Nat}
    (hrun : ∀ j < len, step (run j) = .next (run (j + 1)) ∧ (run (j + 1)).halted = false) :
    ∀ j ≤ len, (run j).st.toNat = (run 0).st.toNat - j := by
  intro j hj
  induction j with
  | zero => rfl
  | succ j ih =>
    obtain ⟨hstep, running⟩ := hrun j hj
    obtain ⟨ev, outcome⟩ := outcome_of_step hstep
    rw [(outcome.timers_of_running running).2, ih (by omega), Nat.sub_sub]

/-- Settles O45: the `j`-th step of the run starts with ST at `k - j`. -/
theorem beepComesAtTheEndOfTheKthStep : Obligations.BeepComesAtTheEndOfTheKthStep := by
  refine ⟨fun s t => beep_iff_of_step, fun s t m ev h => ?host, fun k len run hk hload hrun j hj => ?run⟩
  case host =>
    cases h
    rfl
  case run =>
    rw [beep_iff_of_step (hrun j hj).1, soundTimer_after hrun j hj.le, soundTimer_after hrun (j + 1) hj, hload]
    omega

end Sys2Proof.Machine
end

section
/-! PROOFS. The invariant of the core (spec 10_state.md R28), the reset state, and what the host can do from outside. -/

namespace Sys2Proof.Machine

/-! ## Reset -/

/-- Settles O49: clause by clause on closed values. -/
theorem resetHasTheInvariant : Obligations.ResetHasTheInvariant where
  memoryCanonical := rfl
  indexInMemory := by decide
  pcBounded := by decide
  savedPcsBounded := by decide
  haltedIffErr := by decide
  errAddrOnlyOutOfBounds := by decide

/-- A restart is the reset state but for the fields that are the host's, which the invariant does not read. -/
theorem State.restart_inv (s : State) : s.restart.Inv := by
  obtain ⟨hmem, hi, hpc, hstack, herr, haddr⟩ := resetHasTheInvariant
  exact ⟨hmem, hi, hpc, hstack, herr, haddr⟩

/-- Settles O50: by the reset state's values. -/
theorem resetPutsEveryPieceOfStateToItsValue : Obligations.ResetPutsEveryPieceOfStateToItsValue := by
  refine ⟨fun s => ⟨Memory.read_nil, fun r => ?reg, rfl, rfl, rfl, fun k => ?stack, Display.pixel_blank, rfl, rfl, rfl,
    rfl, rfl, rfl, rfl, rfl⟩, rfl, rfl⟩
  case reg => simp [hostMove, State.restart, State.reset, State.reg]
  case stack => simp [hostMove, State.restart, State.reset]

/-! ## The invariant -/

/-- A fatal error writes the error registers only, consistently (60_exceptions.md R110). -/
theorem State.raise_inv {s : State} (h : s.Inv) (e : FatalError) : (s.raise e).Inv where
  memoryCanonical := h.memoryCanonical
  indexInMemory := h.indexInMemory
  pcBounded := h.pcBounded
  savedPcsBounded := h.savedPcsBounded
  haltedIffErr := iff_of_true rfl e.code_ne_none
  errAddrOnlyOutOfBounds := by cases e <;> simp [FatalError.addr, FatalError.code]

/-- The update table keeps pc in bounds (10_state.md R16). -/
theorem pcAfter_le {i : Instr} {s : State} (h : s.Inv) (hpc : s.pc.toNat ≤ 0xFFE) (can : CanComplete i s) :
    (pcAfter i s).toNat ≤ 0x10FE := by
  have two : (s.pc + 2).toNat ≤ 0x1000 := by bv_omega
  have four : (s.pc + 4).toNat ≤ 0x1002 := by bv_omega
  cases i with
  | jp nnn | call nnn =>
    rw [pcAfter, ← zext16_eq_ofNat, zext16_toNat]
    omega
  | jpV0 nnn =>
    rw [pcAfter, ← State.offsetTarget_eq_ofNat, State.offsetTarget_toNat]
    omega
  | ret =>
    obtain ⟨k, hk⟩ := State.exists_top can
    rw [pcAfter_ret hk]
    have := h.savedPcsBounded k
    omega
  | seImm | sneImm | seReg | sneReg =>
    rw [pcAfter]
    split <;> omega
  | cls | ldImm | addImm | ldReg | orReg | andReg | xorReg | addReg | subReg | shr | subn | shl | ldI | rnd | drw =>
    exact two.trans (by decide)

theorem exec_inv {i : Instr} {s u : State} (h : s.Inv) (hpc : s.pc.toNat ≤ 0xFFE) (can : CanComplete i s)
    (hx : exec i s = .next u) : u.Inv := by
  have frame := exec_frame can hx
  obtain ⟨hhalted, herr, haddr⟩ := frame.errors (errors_not_mem_writtenParts i)
  constructor
  case memoryCanonical => rw [exec_mem hx]; exact h.memoryCanonical
  case indexInMemory =>
    obtain hu | ⟨nnn, -, hu⟩ := exec_index can hx
    · rw [hu]; exact h.indexInMemory
    · rw [hu, zext16_toNat]; omega
  case pcBounded => rw [exec_pc can hx]; exact pcAfter_le h hpc can
  case savedPcsBounded =>
    intro k
    obtain ⟨-, hstack⟩ | ⟨nnn, -, -, hstack⟩ | ⟨-, -, hstack⟩ := exec_stack can hx <;> rw [hstack k]
    · exact h.savedPcsBounded k
    · split
      · bv_omega
      · exact h.savedPcsBounded k
    · exact h.savedPcsBounded k
  case haltedIffErr => rw [hhalted, herr]; exact h.haltedIffErr
  case errAddrOnlyOutOfBounds => rw [haddr, herr]; exact h.errAddrOnlyOutOfBounds

theorem State.tick_inv {s : State} (h : s.Inv) : s.tick.Inv := by
  obtain ⟨hmem, hi, hpc, hstack, herr, haddr⟩ := h
  exact ⟨hmem, hi, hpc, hstack, herr, haddr⟩

theorem execUnknown_inv {s : State} (h : s.Inv) (hpc : s.pc.toNat ≤ 0xFFE) : s.markUnknown.advance.Inv where
  memoryCanonical := h.memoryCanonical
  indexInMemory := h.indexInMemory
  pcBounded := by rw [State.advance_pc, State.markUnknown_pc]; bv_omega
  savedPcsBounded := h.savedPcsBounded
  haltedIffErr := h.haltedIffErr
  errAddrOnlyOutOfBounds := h.errAddrOnlyOutOfBounds

theorem StepOutcome.inv {s t : State} {ev : Events} (h : StepOutcome s t ev) (hs : s.Inv) : t.Inv := by
  cases h with
  | ignored => exact hs
  | badFetch => exact State.raise_inv hs _
  | raises => exact State.raise_inv hs _
  | completes i u hi can hx => exact State.tick_inv (exec_inv hs hi.fetched can hx)
  | unknown _ hpc => exact State.tick_inv (execUnknown_inv hs hpc)

theorem hostMove_inv {s : State} (h : s.Inv) (m : HostMove) : (hostMove m s).Inv := by
  cases m with
  | reset => exact s.restart_inv
  | load addr b => exact { h with memoryCanonical := hostMove_load_wf h.memoryCanonical addr b }
  | writeDT | writeST | clearDirty | presentRnd => exact { h with }

/-- Settles O48: a step by its outcome, a host move by its case. -/
theorem everyTransitionKeepsTheInvariant : Obligations.EveryTransitionKeepsTheInvariant := by
  intro s t m ev hs h
  cases m with
  | step => exact (outcome_of_cycle h).inv hs
  | host m =>
    cases h
    exact hostMove_inv hs m

/-! ## The halted state and the host's write set -/

theorem hostMove_keeps {m : HostMove} (hm : m ≠ .reset) (s : State) :
    hostMove m s = { s with
      mem := (hostMove m s).mem, dt := (hostMove m s).dt, st := (hostMove m s).st, dirty := (hostMove m s).dirty
      rndIn := (hostMove m s).rndIn } := by
  cases m with
  | reset => exact absurd rfl hm
  | load | writeDT | writeST | clearDirty | presentRnd => rfl

/-- Settles O51: a halted core ignores the step; a host move but reset writes none of the registers
(`hostMove_keeps`). -/
theorem onlyResetLeavesTheHaltedStateAndWritesRegistersFromOutside :
    Obligations.OnlyResetLeavesTheHaltedStateAndWritesRegistersFromOutside := by
  refine ⟨fun s t m ev hm halted h => ?_, fun s m hm => hostMove_keeps hm s⟩
  cases m with
  | step =>
    cases h.symm.trans (cycle_of_halted halted)
    exact ⟨halted, rfl, rfl, rfl⟩
  | host m =>
    cases h
    rw [hostMove_keeps (fun e => hm (congrArg Move.host e)) s]
    exact ⟨halted, rfl, rfl, rfl⟩

/-! ## A word placed at pc -/

theorem State.readyToFetch_halted (s : State) : s.readyToFetch.halted = false := by
  simp only [State.readyToFetch]
  split_ifs <;> simp_all

theorem State.readyToFetch_pc_le (s : State) : s.readyToFetch.pc.toNat ≤ 0xFFE := by
  simp only [State.readyToFetch]
  split_ifs <;> simp_all

theorem State.readyToFetch_mem (s : State) : s.readyToFetch.mem = s.mem := by
  simp only [State.readyToFetch]
  split_ifs <;> simp_all

/-- The word placed at pc is the one the fetch reads there. -/
theorem State.wordAtPc_placeWord {s : State} (hwf : s.mem.wf = true) (hpc : s.pc.toNat ≤ 0xFFE) (w : Word) :
    (s.placeWord w).wordAtPc = w := by
  have hwf' := Memory.write_wf hwf (a := s.pc.toNat) (by rw [memSize]; omega) (highByte w)
  rw [State.wordAtPc, State.placeWord_pc, State.placeWord_mem, Memory.read_write hwf', Memory.read_write hwf,
    Memory.read_write hwf', if_neg (by omega), if_pos rfl, if_pos rfl]
  exact composeWord_bytes w

theorem decode_of_decodeTableWord {w : Nat} {i : Instr} (h : decodeTableWord 16 w = some i) :
    decode (BitVec.ofNat 16 (w % 2 ^ 16)) = .instr i := by
  simp only [decodeTableWord, decodeBytes, composeWord_bytes] at h
  split at h
  · cases h; assumption
  · cases h

/-- Settles O30: `readyToFetch` can fetch and keeps memory, and the fetch reads the placed word. -/
theorem placedWordIsTheOneTheNextStepRuns : Obligations.PlacedWordIsTheOneTheNextStepRuns := by
  intro s w i hwf h
  refine ⟨s.readyToFetch_halted, s.readyToFetch_pc_le, ?_⟩
  rw [State.withFetchWord, State.wordAtPc_placeWord (by rwa [State.readyToFetch_mem]) s.readyToFetch_pc_le]
  exact decode_of_decodeTableWord h

end Sys2Proof.Machine
end
